-- ==== Sys2Proof/Word.lean ====
section
/-! DEFINITION. The word types of XMRX (00_scope.md R10) and the shape of destination memory.
Every value is unsigned; no rule sign-extends. -/

namespace Sys2Proof

/-- A byte: 8 bits, unsigned (R10). -/
abbrev Byte := BitVec 8

/-- A register word of the host window: 32 bits (43_host_interface.md R210). -/
abbrev Word := BitVec 32

/-- A CRC-16 accumulator (40_crc_engine.md R110). -/
abbrev Crc16 := BitVec 16

/-- A byte offset inside the 32-byte register window (43_host_interface.md R210). -/
abbrev Offset := BitVec 5

/-- Destination memory: the bytes something has written, as (address, byte) pairs with strictly rising
addresses. A byte nothing has written has no entry. -/
abbrev Mem := List (Nat × Byte)

end Sys2Proof
end

