-- ==== Sys2Proof/Config.lean ====
section
/-! DEFINITION. What an implementation of XMRX fixes (00_scope.md R7 to R9; the OPEN parameters of
92_eei_decisions.md) and the free values, which nothing fixes. The parameters are plain data that the state
carries and no step writes, so that a statement about every state is a statement about every parameter choice. -/

namespace Sys2Proof

/-- What an unrecognised control byte does: parameter `UNKNOWN_CTRL` (R9, 42_transfer_fsm.md R177). -/
inductive UnknownCtrl where
  | discard
  | abort
deriving DecidableEq, Repr

/-- Byte order of register words on the host bus: parameter `REG_ENDIAN` (20_memory.md R63). -/
inductive Endian where
  | little
  | big
deriving DecidableEq, Repr

/-- A range of bus addresses whose accesses have side effects, such as device registers (20_memory.md R64). -/
structure Region where
  base : Nat
  size : Nat
deriving DecidableEq, Repr

/-- The implementation parameters. DESIGN CHOICE (log 4): they are a field of the state, which no step changes. -/
structure Config where
  /-- `AW`, the destination address width in bits (R7); above 32 the model refuses (43_host_interface.md R216). -/
  aw : Nat
  /-- `UNKNOWN_CTRL` (R9). -/
  unknownCtrl : UnknownCtrl
  /-- `NAK_RETRY` (R9): `true` is refused (41_packet_reader.md R153). -/
  nakRetry : Bool
  /-- `T_POLL`, in clock cycles (R8). -/
  tPoll : Nat
  /-- `T_BYTE`, in clock cycles (R8). -/
  tByte : Nat
  /-- `TW`, the width of `TMR` (10_state.md R20). -/
  tw : Nat
  /-- `REG_BASE`, the platform address of the register window (43_host_interface.md R210). -/
  regBase : Nat
  /-- `REG_ENDIAN` (20_memory.md R63). -/
  regEndian : Endian
  /-- The platform's address ranges that are not ordinary memory (20_memory.md R64). -/
  devices : List Region
deriving DecidableEq, Repr

/-- `TW` must hold both reload values (10_state.md R20). A configuration that breaks this is admitted all the same
(log 33). -/
abbrev Config.timerFits (c : Config) : Prop := c.tPoll < 2 ^ c.tw ∧ c.tByte < 2 ^ c.tw

/-- The parameter choices the model admits: `NAK_RETRY = false` (R153) and `AW <= 32` (R216). DESIGN CHOICE (log 33, unsafe
for statements about `TMR` in such a configuration): `timerFits` is not asked for, since 10_state.md R20 does not say what a
block with a smaller `TW` does; it runs with its reload values kept whole. -/
abbrev Config.Admitted (c : Config) : Prop := c.nakRetry = false ∧ c.aw ≤ 32

/-- Free value (log 11): what a byte of destination memory holds while nothing has written it. No body. -/
opaque Config.unwrittenByte : Nat → Byte

/-- Free value (log 12): the draw of 20_memory.md R66, a host read at or above `COUNT` while `BUSY = 1`; its
argument is the number of draws made before it. No body. -/
opaque Config.freeByte : Nat → Byte

/-- Free value (log 34): which of the enabled liberties the environment takes; its argument is the number of draws made
before it. No body. -/
opaque Config.freeChoice : Nat → Nat

/-- Free value (log 34): how many host accesses the environment may choose before a wait in RECEIVING goes on; its argument
is the number of draws made before it. No body. -/
opaque Config.freePatience : Nat → Nat

/-- Free value (log 13): whether the write in flight when `Reset` interrupts a commit lands
(70_reset_and_hazards.md R271); its argument is the number of draws made before it. No body. -/
opaque Config.freeBit : Nat → Bool

end Sys2Proof
end

