-- ==== Sys2Proof/Syntax.lean ====
section
/-! DEFINITION. The operations of XMRX, one constructor per row of spec/opcode_table.json, the events that select
them (30_encoding.md R89), and the position that selects among them (10_state.md R22 to R24). -/

namespace Sys2Proof

/-- `STATE`, the top-level transfer state (10_state.md R23). Values 5 to 7 are never held. -/
inductive XferState where
  | idle
  | awaitingStart
  | receiving
  | done
  | aborted
deriving DecidableEq, Repr

/-- `PHASE`, the position in a frame while receiving (10_state.md R24). Value 7 is never held. -/
inductive Phase where
  | ctrl
  | seq
  | seqc
  | data
  | crch
  | crcl
  | commit
deriving DecidableEq, Repr

/-- `RESULT`, the outcome of the most recent transfer (10_state.md R26). Values 10 to 15 are never written. -/
inductive XferResult where
  | none
  | ok
  | senderCan
  | senderEsc
  | rxTimeout
  | rxError
  | badCrc
  | badSeq
  | badSeqc
  | unknownCtrl
deriving DecidableEq, Repr

/-- The operand of `REJECT`: `BAD_CRC | BAD_SEQ | BAD_SEQC` (41_packet_reader.md R140, R141). -/
inductive RejectCause where
  | badCrc
  | badSeq
  | badSeqc
deriving DecidableEq, Repr

/-- The two forms of a host register access (43_host_interface.md R210). -/
inductive RegAccess where
  | read
  | write (v : Word)
deriving DecidableEq, Repr

/-- The width of a host register access; only an aligned word is defined (43_host_interface.md R210). -/
inductive AccessSize where
  | byte
  | half
  | word
deriving DecidableEq, Repr

/-- One operation of XMRX: one constructor per row of spec/opcode_table.json. -/
inductive Instr where
  /-- `SOH`, R133 -/
  | soh
  /-- `EOT`, R174 -/
  | eot
  /-- `CAN_RX`, R175 -/
  | canRx
  /-- `ESC_RX`, R176 -/
  | escRx
  /-- `OTHER_CTRL`, R177 -/
  | otherCtrl (b : Byte)
  /-- `NAK_RX`, R177 -/
  | nakRx
  /-- `ACK_RX`, R177 -/
  | ackRx
  /-- `STX_RX`, R177 -/
  | stxRx
  /-- `C_RX`, R177 -/
  | cRx
  /-- `HANDSHAKE_REPLY`, R173 -/
  | handshakeReply (b : Byte)
  /-- `SEQ`, R134 -/
  | seq (b : Byte)
  /-- `SEQC`, R135 -/
  | seqc (b : Byte)
  /-- `DATA`, R136 -/
  | data (b : Byte)
  /-- `CRCH`, R137 -/
  | crch (b : Byte)
  /-- `CRCL`, R138 -/
  | crcl (b : Byte)
  /-- `VALIDATE`, R140 -/
  | validate
  /-- `REJECT`, R141 -/
  | reject (cause : RejectCause)
  /-- `ACCEPT`, R142 -/
  | accept
  /-- `COMMIT_STEP`, R150 -/
  | commitStep
  /-- `COMMIT_END`, R151 -/
  | commitEnd
  /-- `TX_C`, R172 and R212 -/
  | txC
  /-- `TX_ACK_FRAME`, R151 -/
  | txAckFrame
  /-- `TX_ACK_EOT`, R174 -/
  | txAckEot
  /-- `TX_CAN`, R141 -/
  | txCan
  /-- `POLL_TIMEOUT`, R172 -/
  | pollTimeout
  /-- `RX_TIMEOUT`, R180 -/
  | rxTimeout
  /-- `RX_ERROR_AWAIT`, R179 -/
  | rxErrorAwait
  /-- `RX_ERROR`, R181 -/
  | rxError
  /-- `TX_TAKE`, R183 -/
  | txTake
  /-- `RESET`, R270 and R271 -/
  | reset
  /-- `START`, R212: a write to offset 0x00 -/
  | start (v : Word)
  /-- `CTRL_READ`, R213 -/
  | ctrlRead
  /-- `STATUS_READ`, R214 -/
  | statusRead
  /-- `STATUS_WRITE`, R215 -/
  | statusWrite (v : Word)
  /-- `BUF_BASE_ACCESS`, R216 -/
  | bufBaseAccess (a : RegAccess)
  /-- `BUF_LEN_ACCESS`, R217 -/
  | bufLenAccess (a : RegAccess)
  /-- `COUNT_READ`, R218; a write has no effect -/
  | countRead (a : RegAccess)
  /-- `SEQ_READ`, R219; a write has no effect -/
  | seqRead (a : RegAccess)
  /-- `CRC_READ`, R220; a write has no effect -/
  | crcRead (a : RegAccess)
  /-- `RESERVED_1C`, R221 -/
  | reserved1c (a : RegAccess)
  /-- `CRC_UPDATE`, R110 -/
  | crcUpdate (acc : Crc16) (b : Byte)
deriving DecidableEq, Repr

/-- What the environment, or the block itself, can do next: the eight events of 30_encoding.md R89, the host's
accesses to destination memory (20_memory.md R66, R67), and a clock cycle in which no agent moves. -/
inductive Event where
  /-- a byte taken from the transport -/
  | rxByte (b : Byte)
  /-- a receive error -/
  | rxErr
  /-- the wait timer expires -/
  | timeout
  /-- the transport takes the byte offered -/
  | txTake
  /-- one commit write is acked -/
  | commitStep
  /-- a host register write -/
  | hostWrite (off : Offset) (size : AccessSize) (v : Word)
  /-- a host register read -/
  | hostRead (off : Offset) (size : AccessSize)
  /-- the reset source -/
  | reset
  /-- the host reads a byte of destination memory (R66) -/
  | memRead (addr : Word)
  /-- the host writes a byte of destination memory (R67) -/
  | memWrite (addr : Word) (v : Byte)
  /-- one clock cycle in which no agent moves (42_transfer_fsm.md R185) -/
  | idle
deriving DecidableEq, Repr

/-- What selects the rule for an event: `(STATE, PHASE, IDX)` (10_state.md R22) and `TXV` (42_transfer_fsm.md R184). -/
structure Position where
  state : XferState
  phase : Phase
  idx : Byte
  txv : Bool
deriving DecidableEq, Repr

end Sys2Proof
end

