-- ==== Sys2Proof/WellFormed.lean ====
section
/-! DEFINITION. Well-formed operations: an operation as 30_encoding.md R81 and spec/opcode_table.json spell it.
The operand types carry every other bound (a cause is one of three, an offset selects one of eight words). -/

namespace Sys2Proof

/-- The bytes that have a ctrl8 row of their own in spec/opcode_table.json. -/
def ctrlRowBytes : List Byte := [0x01, 0x04, 0x18, 0x1B, 0x15, 0x06, 0x02, 0x43]

/-- `OTHER_CTRL` is matched after the rows with a fixed byte (R81), so its operand is none of those bytes;
every other operation is well-formed at every operand. -/
def Instr.wf : Instr → Bool
  | .otherCtrl b => !ctrlRowBytes.contains b
  | _ => true

end Sys2Proof
end

