-- ==== Sys2Proof/Decode.lean ====
section
/-! DEFINITION. The decode map of 30_encoding.md R91, and after it the encoder written from the same tables.
An event selects a row by its kind (R89), then by the position (R91), then, for a control byte, by the full 8 bits
(R81). Decoding is total on all events and positions; an event that selects no row is turned away by name. -/

namespace Sys2Proof

/-- Why an event selects no row. The first five say that the event is not enabled and waits (42_transfer_fsm.md
R170, R184); `subwordAccess` is the refusal of 43_host_interface.md R210; `notAnOperation` is an event that
spec/opcode_table.json has no row for (a host access to destination memory, a silent clock cycle). -/
inductive Reject where
  | txPending
  | noTransfer
  | committing
  | nothingOffered
  | notCommitting
  | badIndex
  | subwordAccess
  | notAnOperation
deriving DecidableEq, Repr

/-! ## Wire bytes (30_encoding.md R80) -/

def byteSOH : Byte := 0x01
def byteEOT : Byte := 0x04
def byteACK : Byte := 0x06
def byteNAK : Byte := 0x15
def byteCAN : Byte := 0x18
def byteESC : Byte := 0x1B
/-- ASCII `'C'`; the spec takes the value 0x43 from general knowledge (R80, log 26). -/
def byteC : Byte := 0x43
/-- STX; the spec takes the value 0x02 from general knowledge (R86, log 26). -/
def byteSTX : Byte := 0x02

/-! ## When an event is enabled (30_encoding.md R89) -/

/-- The condition of 42_transfer_fsm.md R184: the block waits for a byte. -/
def Position.waiting (p : Position) : Bool :=
  !p.txv && (p.state == .awaitingStart || (p.state == .receiving && p.phase != .commit))

/-- The wait that the duty of the block's own in 60_exceptions.md R260 is about: the block waits for a byte in RECEIVING. -/
def Position.reading (p : Position) : Bool := p.waiting && p.state == .receiving

/-- `CommitStep` is enabled in `(RECEIVING, COMMIT)` (R89), with `IDX` from 0 to 127 (41_packet_reader.md R150). -/
def Position.committing (p : Position) : Bool :=
  p.state == .receiving && p.phase == .commit && p.idx.ult 128#8

/-- Why a receive event is not enabled where the block does not wait (R184, and R91's last row). -/
def Position.waitReason (p : Position) : Reject :=
  if p.txv then .txPending
  else if p.state == .receiving then .committing
  else .noTransfer

/-! ## The decoder -/

/-- A byte read in `PHASE = CTRL` (R81), with spec/opcode_table.json's rows for the bytes that fall to "other". -/
def decodeCtrl (b : Byte) : Instr :=
  if b = byteSOH then .soh
  else if b = byteEOT then .eot
  else if b = byteCAN then .canRx
  else if b = byteESC then .escRx
  else if b = byteNAK then .nakRx
  else if b = byteACK then .ackRx
  else if b = byteSTX then .stxRx
  else if b = byteC then .cRx
  else .otherCtrl b

/-- A received byte, by `(STATE, PHASE)` (R91), where the block waits for one. -/
def decodeByte (p : Position) (b : Byte) : Except Reject Instr :=
  if p.state = .awaitingStart then .ok (.handshakeReply b)
  else match p.phase with
    | .ctrl => .ok (decodeCtrl b)
    | .seq => .ok (.seq b)
    | .seqc => .ok (.seqc b)
    | .data => if p.idx.ult 128#8 then .ok (.data b) else .error .badIndex
    | .crch => .ok (.crch b)
    | .crcl => .ok (.crcl b)
    | .commit => .error .committing

/-- Only an aligned 32-bit access is defined (43_host_interface.md R210). -/
def alignedWord (off : Offset) (size : AccessSize) : Bool :=
  size == .word && off.extractLsb' 0 2 == 0#2

/-- A host write, by `reg_addr[4:2]` (R210, R211). -/
def decodeWrite (off : Offset) (v : Word) : Instr :=
  match (off.extractLsb' 2 3).toNat with
  | 0 => .start v
  | 1 => .statusWrite v
  | 2 => .bufBaseAccess (.write v)
  | 3 => .bufLenAccess (.write v)
  | 4 => .countRead (.write v)
  | 5 => .seqRead (.write v)
  | 6 => .crcRead (.write v)
  | _ => .reserved1c (.write v)

/-- A host read, by `reg_addr[4:2]` (R210, R211). -/
def decodeRead (off : Offset) : Instr :=
  match (off.extractLsb' 2 3).toNat with
  | 0 => .ctrlRead
  | 1 => .statusRead
  | 2 => .bufBaseAccess .read
  | 3 => .bufLenAccess .read
  | 4 => .countRead .read
  | 5 => .seqRead .read
  | 6 => .crcRead .read
  | _ => .reserved1c .read

/-- The decode map (R91): the row an event selects at a position, or why it selects none. -/
def decode (p : Position) : Event → Except Reject Instr
  | .rxByte b => if p.waiting then decodeByte p b else .error p.waitReason
  | .rxErr =>
    if p.waiting then .ok (if p.state = .awaitingStart then .rxErrorAwait else .rxError)
    else .error p.waitReason
  | .timeout =>
    if p.waiting then .ok (if p.state = .awaitingStart then .pollTimeout else .rxTimeout)
    else .error p.waitReason
  | .txTake => if p.txv then .ok .txTake else .error .nothingOffered
  | .commitStep => if p.committing then .ok .commitStep else .error .notCommitting
  | .hostWrite off size v => if alignedWord off size then .ok (decodeWrite off v) else .error .subwordAccess
  | .hostRead off size => if alignedWord off size then .ok (decodeRead off) else .error .subwordAccess
  | .reset => .ok .reset
  | .memRead _ => .error .notAnOperation
  | .memWrite _ _ => .error .notAnOperation
  | .idle => .error .notAnOperation

/-- Whether an event can occur at a position (R89). Every event can, but a receive event, `TxTake` and `CommitStep`
that are not enabled: those wait (R170). -/
def occurs (p : Position) (e : Event) : Bool :=
  match decode p e with
  | .ok _ => true
  | .error .subwordAccess => true
  | .error .notAnOperation => true
  | .error _ => false

/-! ## The encoder -/

/-- The event that selects an operation, from R81, R89, R91 and R211. The rows of format internal (but COMMIT_STEP),
tx8 and function are selected by no event: they happen inside the step of another row (log 7). -/
def encode : Instr → Option Event
  | .soh => some (.rxByte 0x01)
  | .eot => some (.rxByte 0x04)
  | .canRx => some (.rxByte 0x18)
  | .escRx => some (.rxByte 0x1B)
  | .otherCtrl b => some (.rxByte b)
  | .nakRx => some (.rxByte 0x15)
  | .ackRx => some (.rxByte 0x06)
  | .stxRx => some (.rxByte 0x02)
  | .cRx => some (.rxByte 0x43)
  | .handshakeReply b => some (.rxByte b)
  | .seq b => some (.rxByte b)
  | .seqc b => some (.rxByte b)
  | .data b => some (.rxByte b)
  | .crch b => some (.rxByte b)
  | .crcl b => some (.rxByte b)
  | .validate => none
  | .reject _ => none
  | .accept => none
  | .commitStep => some .commitStep
  | .commitEnd => none
  | .txC => none
  | .txAckFrame => none
  | .txAckEot => none
  | .txCan => none
  | .pollTimeout => some .timeout
  | .rxTimeout => some .timeout
  | .rxErrorAwait => some .rxErr
  | .rxError => some .rxErr
  | .txTake => some .txTake
  | .reset => some .reset
  | .start v => some (.hostWrite 0x00 .word v)
  | .ctrlRead => some (.hostRead 0x00 .word)
  | .statusRead => some (.hostRead 0x04 .word)
  | .statusWrite v => some (.hostWrite 0x04 .word v)
  | .bufBaseAccess .read => some (.hostRead 0x08 .word)
  | .bufBaseAccess (.write v) => some (.hostWrite 0x08 .word v)
  | .bufLenAccess .read => some (.hostRead 0x0C .word)
  | .bufLenAccess (.write v) => some (.hostWrite 0x0C .word v)
  | .countRead .read => some (.hostRead 0x10 .word)
  | .countRead (.write v) => some (.hostWrite 0x10 .word v)
  | .seqRead .read => some (.hostRead 0x14 .word)
  | .seqRead (.write v) => some (.hostWrite 0x14 .word v)
  | .crcRead .read => some (.hostRead 0x18 .word)
  | .crcRead (.write v) => some (.hostWrite 0x18 .word v)
  | .reserved1c .read => some (.hostRead 0x1C .word)
  | .reserved1c (.write v) => some (.hostWrite 0x1C .word v)
  | .crcUpdate _ _ => none

/-- The "context" column of spec/opcode_table.json: the positions at which a row applies. The rows inside the step
of CRCL apply at CRCL's position, COMMIT_END where a CommitStep has made `IDX = 128` (41_packet_reader.md R150),
and the tx8 rows where the rule that emits them stands, always with `TXV = 0` (42_transfer_fsm.md R183). -/
def Instr.inContext (i : Instr) (p : Position) : Bool :=
  let receivingIn (ph : Phase) : Bool := !p.txv && p.state == .receiving && p.phase == ph
  let awaiting : Bool := !p.txv && p.state == .awaitingStart
  match i with
  | .soh => receivingIn .ctrl
  | .eot => receivingIn .ctrl
  | .canRx => receivingIn .ctrl
  | .escRx => receivingIn .ctrl
  | .otherCtrl b => receivingIn .ctrl && b != byteSOH && b != byteEOT && b != byteCAN && b != byteESC
  | .nakRx => receivingIn .ctrl
  | .ackRx => receivingIn .ctrl
  | .stxRx => receivingIn .ctrl
  | .cRx => receivingIn .ctrl
  | .handshakeReply _ => awaiting
  | .seq _ => receivingIn .seq
  | .seqc _ => receivingIn .seqc
  | .data _ => receivingIn .data && p.idx.ult 128#8
  | .crch _ => receivingIn .crch
  | .crcl _ => receivingIn .crcl
  | .validate => receivingIn .crcl
  | .reject _ => receivingIn .crcl
  | .accept => receivingIn .crcl
  | .commitStep => p.committing
  | .commitEnd => p.state == .receiving && p.phase == .commit && p.idx == 128#8
  | .txC => awaiting
  | .txAckFrame => receivingIn .ctrl
  | .txAckEot => receivingIn .ctrl
  | .txCan => receivingIn .crcl
  | .pollTimeout => awaiting
  | .rxTimeout => !p.txv && p.state == .receiving && p.phase != .commit
  | .rxErrorAwait => awaiting
  | .rxError => !p.txv && p.state == .receiving && p.phase != .commit
  | .txTake => p.txv
  | .reset => true
  | .start _ => true
  | .ctrlRead => true
  | .statusRead => true
  | .statusWrite _ => true
  | .bufBaseAccess _ => true
  | .bufLenAccess _ => true
  | .countRead _ => true
  | .seqRead _ => true
  | .crcRead _ => true
  | .reserved1c _ => true
  | .crcUpdate _ _ => true

/-! ## Words of the opcode table -/

/-- The position at which spec/opcode_table.json's ctrl8 rows apply: `(RECEIVING, CTRL)` with `TXV = 0`. -/
def ctrlPosition : Position := { state := .receiving, phase := .ctrl, idx := 0, txv := false }

/-- The event that a word of spec/opcode_table.json stands for (log 19): a row of 8 bits is a byte received in
`PHASE = CTRL`; a row of 32 bits numbers the register offset as bits 4:2, and is read as a host read of that word;
no other width is the word of an event. -/
def tableEvent (nbits w : Nat) : Option Event :=
  if nbits = 8 then some (.rxByte (BitVec.ofNat 8 w))
  else if nbits = 32 then some (.hostRead (BitVec.ofNat 5 w &&& 0x1C#5) .word)
  else none

/-- The operation the decoder reads from a word numbered as spec/opcode_table.json numbers it (log 19). -/
def decodeTableWord (nbits w : Nat) : Option Instr :=
  match tableEvent nbits w with
  | none => none
  | some e =>
    match decode ctrlPosition e with
    | .ok i => some i
    | .error _ => none

end Sys2Proof
end

