-- ==== Sys2Proof/Machine/State.lean ====
section
/-! DEFINITION. The state of XMRX as plain data: every element of 10_state.md R20 with its reset value of R42, the
world the block acts on (destination memory, the two byte streams, the register read port, the parameters), and the
model's own fields. -/

namespace Sys2Proof.Machine

/-- Why the machine stops with a fault: the spec gives no meaning past the point (60_exceptions.md R250). -/
inductive Fault where
  /-- `BufferOverrun`: raised by `accept` (41_packet_reader.md R142), so by CRCL, VALIDATE and ACCEPT. Safe. -/
  | bufferOverrun
  /-- `RegionWrap`: raised by START (43_host_interface.md R212). Safe. -/
  | regionWrap
  /-- `HostBufferWrite`: raised by a host write into the region while `BUSY = 1` (20_memory.md R67). Safe. -/
  | hostBufferWrite
  /-- A host access to destination memory at an address that `AW` bits do not reach (20_memory.md R60, log 18). Safe. -/
  | noSuchAddress
deriving DecidableEq, Repr

/-- Why the model does not admit a run (60_exceptions.md R252) or has no meaning for a request. -/
inductive Refusal where
  /-- exec's arm of an operation that has no meaning yet. Safe. -/
  | notModelled (mnemonic : String)
  /-- `NakRetry`: every step and every meaning, where parameter `NAK_RETRY = true` (41_packet_reader.md R153). Safe. -/
  | nakRetry
  /-- `SubwordAccess`: a step whose event is a host access that is no aligned word (43_host_interface.md R210). Safe. -/
  | subwordAccess
  /-- `WideAddress`: every step and every meaning, where parameter `AW > 32` (43_host_interface.md R216). Safe. -/
  | wideAddress
  /-- `DeviceRegion`: START with a destination region that is not ordinary memory (20_memory.md R64). Safe. -/
  | deviceRegion
  /-- exec was asked for an operation outside the context spec/opcode_table.json gives it: an event that is not
  enabled does not occur (42_transfer_fsm.md R170, log 6). No step asks for one. Safe. -/
  | notEnabled
deriving DecidableEq, Repr

/-- The state of the machine. -/
structure State where
  /-- `STATE` (10_state.md R23) -/
  state : XferState
  /-- `PHASE` (R24) -/
  phase : Phase
  /-- `IDX` (R25) -/
  idx : Byte
  /-- `RESULT` (R26) -/
  result : XferResult
  /-- `BUF_BASE`, at most `AW <= 32` bits (R27, log 16) -/
  bufBase : Word
  /-- `BUF_LEN` (R28) -/
  bufLen : Word
  /-- `COUNT` (R29) -/
  count : Word
  /-- `EXP_SEQ` (R30) -/
  expSeq : Byte
  /-- `RX_SEQ` (R31) -/
  rxSeq : Byte
  /-- `RX_SEQC` (R31) -/
  rxSeqc : Byte
  /-- `LAST_CTRL` (R32) -/
  lastCtrl : Byte
  /-- `CALC_CRC` (R33) -/
  calcCrc : Crc16
  /-- `RX_CRC` (R34) -/
  rxCrc : Crc16
  /-- `PKT[0..127]` (R35) -/
  pkt : Vector Byte 128
  /-- `TXV` (R36) -/
  txv : Bool
  /-- `TXB` (R36) -/
  txb : Byte
  /-- `TMR` (R37), a number: that it has `TW` bits is a clause of the invariant `BlockInv` where the configuration meets R20,
  and not asked for elsewhere (log 33) -/
  tmr : Nat
  /-- destination memory (20_memory.md R60) -/
  mem : Mem
  /-- the transmit stream: the bytes the transport has taken, oldest first (42_transfer_fsm.md R183) -/
  txStream : List Byte
  /-- the environment's pending events, next first; its receive events are the bytes that wait in the transport
  (42_transfer_fsm.md R170, R184, log 1) -/
  events : List Event
  /-- what the environment may do, again and again and without end, while none of `events` is enabled: a step then takes
  an enabled one of these, freely chosen (60_exceptions.md R260, log 34). Empty: the environment stays silent -/
  liberties : List Event
  /-- model: how many host accesses the environment may still choose among its liberties before a wait in RECEIVING goes on
  (60_exceptions.md R260, log 34) -/
  patience : Nat
  /-- `reg_rdata`: what the last host register read returned (30_encoding.md R88, log 9) -/
  rdata : Word
  /-- model: what the host's last read of destination memory returned (20_memory.md R66, log 10) -/
  memData : Byte
  /-- model: what a stand-alone CRC_UPDATE returned (40_crc_engine.md R110, log 8) -/
  crcOut : Crc16
  /-- model: how many free values have been drawn (log 29) -/
  draws : Nat
  /-- the implementation parameters, which no step writes (00_scope.md R7 to R9, log 4) -/
  cfg : Config
deriving DecidableEq, Repr

/-- The parameters at `State.reset`: the spec's defaults (R7, R9, 20_memory.md R63), and DESIGN CHOICE values for the
parameters that have none (log 4). -/
def State.resetConfig : Config where
  aw := 32
  unknownCtrl := .discard
  nakRetry := false
  tPoll := 1
  tByte := 1
  tw := 1
  regBase := 0
  regEndian := .little
  devices := []

/-- The machine right after reset (10_state.md R42). `pkt` and `txb`, which R42 leaves unspecified, hold zero
(DESIGN CHOICE, logs 14 and 15). Nothing is in memory, no event is pending, the environment is silent (DESIGN CHOICE,
log 34), no byte has been sent. -/
def State.reset : State where
  state := .idle
  phase := .ctrl
  idx := 0
  result := .none
  bufBase := 0
  bufLen := 0
  count := 0
  expSeq := 1
  rxSeq := 0
  rxSeqc := 0
  lastCtrl := 0
  calcCrc := 0
  rxCrc := 0
  pkt := Vector.replicate 128 0
  txv := false
  txb := 0
  tmr := 0
  mem := []
  txStream := []
  events := []
  liberties := []
  patience := 0
  rdata := 0
  memData := 0
  crcOut := 0
  draws := 0
  cfg := State.resetConfig

end Sys2Proof.Machine
end

