-- ==== Sys2Proof/Machine/Flags.lean ====
section
/-! DEFINITION. The derived conditions of XMRX. It has no condition codes (10_state.md R40): what an operation tests is
computed from the registers each time. -/

namespace Sys2Proof.Machine

/-- The position that selects the rule for an event (10_state.md R22, 42_transfer_fsm.md R184). -/
def State.position (s : State) : Position :=
  { state := s.state, phase := s.phase, idx := s.idx, txv := s.txv }

/-- `BUSY` (10_state.md R38). -/
def State.busy (s : State) : Bool :=
  s.state == .awaitingStart || s.state == .receiving || s.txv

/-- `crc_ok` (41_packet_reader.md R140). -/
def State.crcOk (s : State) : Bool := s.rxCrc == s.calcCrc

/-- `seq_ok` (R140). -/
def State.seqOk (s : State) : Bool := s.rxSeq == s.expSeq

/-- `cmp_ok` (R140): byte 1 against the complement of the byte 0 received. -/
def State.cmpOk (s : State) : Bool := s.rxSeqc == ~~~s.rxSeq

/-- A transfer has ended (42_transfer_fsm.md R187). -/
def State.ended (s : State) : Bool := (s.state == .done || s.state == .aborted) && !s.txv

end Sys2Proof.Machine
end

