-- ==== Sys2Proof/Machine/Operands.lean ====
section
/-! DEFINITION. Operand forms: the encodings of the enumerations, the words of the register window
(43_host_interface.md), the destination region and the addresses inside it (20_memory.md R61, R62), and the register
window on the host bus (R63, R210). -/

namespace Sys2Proof

/-! ## Encodings -/

/-- Encoding of `STATE` (10_state.md R23). -/
def XferState.code : XferState → BitVec 3
  | .idle => 0
  | .awaitingStart => 1
  | .receiving => 2
  | .done => 3
  | .aborted => 4

/-- Encoding of `PHASE` (10_state.md R24). -/
def Phase.code : Phase → BitVec 3
  | .ctrl => 0
  | .seq => 1
  | .seqc => 2
  | .data => 3
  | .crch => 4
  | .crcl => 5
  | .commit => 6

/-- Encoding of `RESULT` (10_state.md R26). -/
def XferResult.code : XferResult → BitVec 4
  | .none => 0
  | .ok => 1
  | .senderCan => 2
  | .senderEsc => 3
  | .rxTimeout => 4
  | .rxError => 5
  | .badCrc => 6
  | .badSeq => 7
  | .badSeqc => 8
  | .unknownCtrl => 9

/-- The abort cause a failed check reports (41_packet_reader.md R140, 60_exceptions.md R242). -/
def RejectCause.result : RejectCause → XferResult
  | .badCrc => .badCrc
  | .badSeq => .badSeq
  | .badSeqc => .badSeqc

namespace Machine

/-! ## Words of the register window -/

/-- `STATUS` (43_host_interface.md R214). -/
def State.statusWord (s : State) : Word :=
  0#8 ++ s.idx ++ 0#4 ++ s.result.code ++ BitVec.ofBool s.busy ++ s.phase.code ++ BitVec.ofBool s.txv ++ s.state.code

/-- `SEQ` (R219). -/
def State.seqWord (s : State) : Word := s.lastCtrl ++ s.rxSeqc ++ s.rxSeq ++ s.expSeq

/-- `CRC` (R220). -/
def State.crcWord (s : State) : Word := s.rxCrc ++ s.calcCrc

/-- `v[AW-1:0]`, zero-extended to a register word (R216). -/
def addressBits (aw : Nat) (v : Word) : Word := (v.setWidth aw).setWidth 32

/-! ## The destination region and its addresses -/

/-- The address of the next write of a commit: `BUF_BASE + COUNT + IDX` at `AW` bits (20_memory.md R62). -/
def State.destAddress (s : State) : Nat :=
  (s.bufBase.toNat + s.count.toNat + s.idx.toNat) % 2 ^ s.cfg.aw

/-- The payload byte that the next write of a commit stores: `PKT[IDX]` (41_packet_reader.md R150). DESIGN CHOICE (log 31):
0x00 where `IDX` is 128 or more; no write happens there (`Position.committing`), so only `mem_wdata` can show it. -/
def State.stagedByte (s : State) : Byte := (s.pkt[s.idx.toNat]?).getD 0

/-- Whether an address lies in the destination region `[BUF_BASE, BUF_BASE + BUF_LEN)` (20_memory.md R61). -/
def State.inRegion (s : State) (a : Nat) : Bool :=
  s.bufBase.toNat ≤ a && a < s.bufBase.toNat + s.bufLen.toNat

/-- `BUF_BASE + BUF_LEN > 2^AW`, computed without truncation (20_memory.md R61, 43_host_interface.md R212). -/
def State.regionWraps (s : State) : Bool :=
  2 ^ s.cfg.aw < s.bufBase.toNat + s.bufLen.toNat

/-- Whether the destination region has an address in common with a range that is not ordinary memory (20_memory.md R64). -/
def State.regionHitsDevice (s : State) : Bool :=
  s.cfg.devices.any fun d =>
    max s.bufBase.toNat d.base < min (s.bufBase.toNat + s.bufLen.toNat) (d.base + d.size)

/-- Whether an address belongs to a range that is not ordinary memory (20_memory.md R64). -/
def isDevice (c : Config) (a : Nat) : Bool :=
  c.devices.any fun d => d.base ≤ a && a < d.base + d.size

/-! ## The register window on the host bus -/

/-- The bus address of a register (43_host_interface.md R210). -/
def registerAddress (c : Config) (off : Offset) : Nat := c.regBase + off.toNat

/-- The bytes of a register word in the order of rising bus addresses: parameter `REG_ENDIAN` (20_memory.md R63). -/
def busBytes (c : Config) (v : Word) : List Byte :=
  let little : List Byte := [v.extractLsb' 0 8, v.extractLsb' 8 8, v.extractLsb' 16 8, v.extractLsb' 24 8]
  match c.regEndian with
  | .little => little
  | .big => little.reverse

end Machine

end Sys2Proof
end

