-- ==== Sys2Proof/Machine/Ops.lean ====
section
/-! DEFINITION. The shared operations: destination memory, the CRC engine's function, the transmit register, the wait
timer, the abort entry, the handling of a control byte, validation, the commit, and the free draws. Each meaning of an
operation is a few of these. -/

namespace Sys2Proof.Machine

/-- What an operation answers. -/
abbrev Answer := Host.Outcome State Fault Refusal

/-! ## Destination memory (20_memory.md) -/

/-- The byte at an address, where something has written one. An address with no entry holds no value of the model's. -/
def Mem.read : Mem → Nat → Option Byte
  | [], _ => none
  | (b, w) :: m, a => if a = b then some w else Mem.read m a

/-- `MemWrite(a, 1, v)` (00_scope.md R11); the addresses stay strictly rising. -/
def Mem.write : Mem → Nat → Byte → Mem
  | [], a, v => [(a, v)]
  | (b, w) :: m, a, v =>
    if a < b then (a, v) :: (b, w) :: m
    else if a = b then (a, v) :: m
    else (b, w) :: Mem.write m a v

/-- The canonical form of memory: addresses strictly rising. No entry can equal what an unlisted address reads as,
which is no value. -/
abbrev Mem.wf (m : Mem) : Prop := (m.map Prod.fst).Pairwise (· < ·)

/-- The last value written at an address (20_memory.md R66), and a free value where nothing has written one (log 11). -/
def State.lastWritten (s : State) (a : Nat) : Byte := (Mem.read s.mem a).getD (Config.unwrittenByte a)

/-! ## The CRC-16/XMODEM function (40_crc_engine.md) -/

/-- `CRC_POLY` (00_scope.md R9). -/
def crcPoly : Crc16 := 0x1021

/-- `CRC_INIT` (00_scope.md R9). -/
def crcInit : Crc16 := 0x0000

/-- One iteration of R110. -/
def crcShift (a : Crc16) : Crc16 := if a.msb then (a <<< 1) ^^^ crcPoly else a <<< 1

/-- `n` iterations of R110. -/
def crcShifts : Nat → Crc16 → Crc16
  | 0, a => a
  | n + 1, a => crcShifts n (crcShift a)

/-- `crc16_update(acc, b)` (R110). -/
def crc16Update (acc : Crc16) (b : Byte) : Crc16 := crcShifts 8 (acc ^^^ (b ++ 0#8))

/-- The CRC of a byte sequence from a start value (R111). -/
def crc16 (acc : Crc16) (bytes : List Byte) : Crc16 := bytes.foldl crc16Update acc

/-! ## Transmit register and wait timer (42_transfer_fsm.md) -/

/-- `emit(b)` (R183). -/
def emit (b : Byte) (s : State) : State := { s with txb := b, txv := true }

/-- The byte wait restarts: `TMR <- T_BYTE` (R185). -/
def restartWait (s : State) : State := { s with tmr := s.cfg.tByte }

/-- `TMR` has reached 0, which is what `Timeout` stands for (30_encoding.md R89). -/
def timerExpired (s : State) : State := { s with tmr := 0 }

/-- The transport takes `TXB` (R183); the wait that follows loads `TMR` (R185): with `T_POLL` after a `'C'` in
AWAITING_START, with `T_BYTE` where it leaves the block in RECEIVING. -/
def takeByte (s : State) : State :=
  let taken : State := { s with txStream := s.txStream ++ [s.txb], txv := false }
  if s.state = .awaitingStart then
    if s.txb = byteC then { taken with tmr := s.cfg.tPoll } else taken
  else if s.state = .receiving then restartWait taken
  else taken

/-! ## The abort entry (60_exceptions.md R241): the one way an exception is taken. There is no return from it (R244). -/

/-- `abort(cause)` (R241). -/
def abort (cause : XferResult) (s : State) : State :=
  { s with state := .aborted, result := cause, phase := .ctrl, idx := 0 }

/-! ## Control bytes (30_encoding.md R81, 42_transfer_fsm.md) -/

/-- `LAST_CTRL <- b` (42_transfer_fsm.md R171). -/
def recordCtrl (b : Byte) (s : State) : State := { s with lastCtrl := b }

/-- SOH (41_packet_reader.md R133). -/
def startFrame (s : State) : State := restartWait { s with calcCrc := crcInit, idx := 0, phase := .seq }

/-- EOT (42_transfer_fsm.md R174). -/
def endTransmission (s : State) : State := { emit byteACK s with state := .done, result := .ok }

/-- An unrecognised control byte (42_transfer_fsm.md R177). -/
def unrecognisedCtrl (s : State) : State :=
  match s.cfg.unknownCtrl with
  | .discard => restartWait s
  | .abort => abort .unknownCtrl s

/-- A byte handled in `PHASE = CTRL`: recorded first (R171), then handled by the first row of R81 that matches it. -/
def dispatchCtrl (b : Byte) (s : State) : State :=
  if b = byteSOH then startFrame (recordCtrl b s)
  else if b = byteEOT then endTransmission (recordCtrl b s)
  else if b = byteCAN then abort .senderCan (recordCtrl b s)
  else if b = byteESC then abort .senderEsc (recordCtrl b s)
  else unrecognisedCtrl (recordCtrl b s)

/-! ## Validation (41_packet_reader.md R140 to R142) -/

/-- `reject(cause)` (R141): one CAN, then the abort. -/
def rejectFrame (cause : RejectCause) (s : State) : State := abort cause.result (emit byteCAN s)

/-- `accept()` (R142); the sum is exact. -/
def acceptFrame (s : State) : Answer :=
  if s.bufLen.toNat < s.count.toNat + 128 then .fault .bufferOverrun
  else .next { s with idx := 0, phase := .commit }

/-- `validate()` (R140): the first check that fails, in the order CRC, byte 0, byte 1, names the cause. -/
def validateFrame (s : State) : Answer :=
  if s.crcOk && s.seqOk && s.cmpOk then acceptFrame s
  else if !s.crcOk then .next (rejectFrame .badCrc s)
  else if !s.seqOk then .next (rejectFrame .badSeq s)
  else .next (rejectFrame .badSeqc s)

/-! ## Commit (41_packet_reader.md R150, R151) -/

/-- The write of a CommitStep, and `IDX <- IDX + 1` (R150). -/
def commitWrite (s : State) : State :=
  { s with mem := Mem.write s.mem s.destAddress s.stagedByte, idx := s.idx + 1 }

/-- `commit_end()` (R151). -/
def finishFrame (s : State) : State :=
  emit byteACK { s with count := s.count + 128, expSeq := s.expSeq + 1, idx := 0, phase := .ctrl }

/-- One CommitStep (R150): the write, and in the same step the end of the frame after the last byte. -/
def commitByte (s : State) : State :=
  if (commitWrite s).idx = 128 then finishFrame (commitWrite s) else commitWrite s

/-! ## Reset (70_reset_and_hazards.md R270, R271) -/

/-- The write in flight when `Reset` interrupts a commit (R271): it lands or it does not, a free choice (log 13). -/
def writeInFlight (s : State) : State :=
  if s.position.committing then
    { s with
      mem := if Config.freeBit s.draws then Mem.write s.mem s.destAddress s.stagedByte else s.mem
      draws := s.draws + 1 }
  else s

/-- Every register takes its reset value (R270, 10_state.md R42); the world outside the block does not change. -/
def resetRegisters (s : State) : State :=
  { State.reset with
    mem := s.mem
    txStream := s.txStream
    events := s.events
    liberties := s.liberties
    patience := s.patience
    rdata := s.rdata
    memData := s.memData
    crcOut := s.crcOut
    draws := s.draws
    cfg := s.cfg }

/-! ## What the model admits (60_exceptions.md R252) -/

/-- The refusal of a parameter choice: `NAK_RETRY = true` (41_packet_reader.md R153), `AW > 32`
(43_host_interface.md R216). It marks the whole run (log 5). -/
def configRefusal (c : Config) : Option Refusal :=
  if c.nakRetry then some .nakRetry
  else if 32 < c.aw then some .wideAddress
  else none

/-- An operation runs where the parameters are admitted and the position is in the operation's context
(30_encoding.md R91, 42_transfer_fsm.md R170, log 6). -/
def guarded (i : Instr) (s : State) (answer : Answer) : Answer :=
  match configRefusal s.cfg with
  | some r => .refused r
  | none => if i.inContext s.position then answer else .refused .notEnabled

end Sys2Proof.Machine
end

