-- ==== Sys2Proof/Machine/Commit.lean ====
section
/-! DEFINITION. The commit rows: copying an accepted payload to the destination (41_packet_reader.md R150, R151). -/

namespace Sys2Proof.Machine

/-- COMMIT_STEP: one staged byte goes to the destination (R150). -/
def execCommitStep (s : State) : Answer := guarded .commitStep s (.next (commitByte s))

/-- COMMIT_END: the accepted frame is finished (R151), in the step of the CommitStep that makes `IDX = 128`. -/
def execCommitEnd (s : State) : Answer := guarded .commitEnd s (.next (finishFrame s))

end Sys2Proof.Machine
end

