-- ==== Sys2Proof/Machine/Control.lean ====
section
/-! DEFINITION. Family ctrl8: a byte read in `PHASE = CTRL` (30_encoding.md R81), and the byte that answers the
handshake (42_transfer_fsm.md R173). Every one records the byte first (R171). -/

namespace Sys2Proof.Machine

/-- SOH: start of frame (41_packet_reader.md R133). -/
def execSoh (s : State) : Answer := guarded .soh s (.next (startFrame (recordCtrl byteSOH s)))

/-- EOT: end of transmission (42_transfer_fsm.md R174). -/
def execEot (s : State) : Answer := guarded .eot s (.next (endTransmission (recordCtrl byteEOT s)))

/-- CAN: sender cancel (42_transfer_fsm.md R175). -/
def execCanRx (s : State) : Answer := guarded .canRx s (.next (abort .senderCan (recordCtrl byteCAN s)))

/-- ESC: sender escape (42_transfer_fsm.md R176). -/
def execEscRx (s : State) : Answer := guarded .escRx s (.next (abort .senderEsc (recordCtrl byteESC s)))

/-- Any other control byte (42_transfer_fsm.md R177). -/
def execOtherCtrl (b : Byte) (s : State) : Answer :=
  guarded (.otherCtrl b) s (.next (unrecognisedCtrl (recordCtrl b s)))

/-- NAK received: no meaning of its own (30_encoding.md R86, 42_transfer_fsm.md R177). -/
def execNakRx (s : State) : Answer := guarded .nakRx s (.next (unrecognisedCtrl (recordCtrl byteNAK s)))

/-- ACK received: no meaning of its own (30_encoding.md R86, 42_transfer_fsm.md R177). -/
def execAckRx (s : State) : Answer := guarded .ackRx s (.next (unrecognisedCtrl (recordCtrl byteACK s)))

/-- STX received: no meaning of its own (30_encoding.md R86, 42_transfer_fsm.md R177). -/
def execStxRx (s : State) : Answer := guarded .stxRx s (.next (unrecognisedCtrl (recordCtrl byteSTX s)))

/-- `'C'` received: no meaning of its own (30_encoding.md R86, 42_transfer_fsm.md R177). -/
def execCRx (s : State) : Answer := guarded .cRx s (.next (unrecognisedCtrl (recordCtrl byteC s)))

/-- The sender has answered (42_transfer_fsm.md R173): the byte ends the handshake and is handled in the same step
as the first control byte of RECEIVING. -/
def execHandshakeReply (b : Byte) (s : State) : Answer :=
  guarded (.handshakeReply b) s (.next (dispatchCtrl b { s with state := .receiving }))

end Sys2Proof.Machine
end

