-- ==== Sys2Proof/Machine/CrcEngine.lean ====
section
/-! DEFINITION. CRC_UPDATE, the CRC engine as the leaf component it is (40_crc_engine.md R110). -/

namespace Sys2Proof.Machine

/-- CRC_UPDATE: total on all inputs; it reads and writes no register, and returns the new accumulator (R110, log 8). -/
def execCrcUpdate (acc : Crc16) (b : Byte) (s : State) : Answer :=
  guarded (.crcUpdate acc b) s (.next { s with crcOut := crc16Update acc b })

end Sys2Proof.Machine
end

