-- ==== Sys2Proof/Machine/Frame.lean ====
section
/-! DEFINITION. Family field8 and the validation rows: the bytes of a frame after SOH (41_packet_reader.md R134 to
R138) and its validation (R140 to R142). Any of the 256 byte values is data here (30_encoding.md R86). -/

namespace Sys2Proof.Machine

/-- SEQ: sequence byte 0, not checked here (R134). -/
def execSeq (b : Byte) (s : State) : Answer :=
  guarded (.seq b) s (.next (restartWait { s with rxSeq := b, phase := .seqc }))

/-- SEQC: sequence byte 1, not checked here (R135). -/
def execSeqc (b : Byte) (s : State) : Answer :=
  guarded (.seqc b) s (.next (restartWait { s with rxSeqc := b, idx := 0, phase := .data }))

/-- DATA: a payload byte, staged and folded into the CRC; the 128th moves on to the trailer (R136). -/
def execData (b : Byte) (s : State) : Answer :=
  guarded (.data b) s (.next (restartWait { s with
    pkt := s.pkt.setIfInBounds s.idx.toNat b
    calcCrc := crc16Update s.calcCrc b
    idx := s.idx + 1
    phase := if s.idx + 1 = 128 then .crch else .data }))

/-- CRCH: trailer high byte; `RX_CRC[7:0]` is kept (R137). -/
def execCrch (b : Byte) (s : State) : Answer :=
  guarded (.crch b) s (.next (restartWait { s with rxCrc := b ++ s.rxCrc.extractLsb' 0 8, phase := .crcl }))

/-- CRCL: trailer low byte, then validation in the same step (R138). -/
def execCrcl (b : Byte) (s : State) : Answer :=
  guarded (.crcl b) s (validateFrame { s with rxCrc := s.rxCrc.extractLsb' 8 8 ++ b })

/-- VALIDATE (R140), in the step of CRCL. -/
def execValidate (s : State) : Answer := guarded .validate s (validateFrame s)

/-- REJECT (R141), in the step of CRCL. -/
def execReject (cause : RejectCause) (s : State) : Answer :=
  guarded (.reject cause) s (.next (rejectFrame cause s))

/-- ACCEPT (R142), in the step of CRCL. -/
def execAccept (s : State) : Answer := guarded .accept s (acceptFrame s)

end Sys2Proof.Machine
end

