-- ==== Sys2Proof/Machine/HostRegisters.lean ====
section
/-! DEFINITION. Family reg32: the host's accesses to the register window (43_host_interface.md R210 to R222). A read
drives `reg_rdata` and has no other effect (R222). -/

namespace Sys2Proof.Machine

/-- A register read returns a word. -/
def readReg (v : Word) (s : State) : State := { s with rdata := v }

/-- The fresh session of START (R212). -/
def openSession (s : State) : State :=
  emit byteC { s with
    count := 0
    expSeq := 1
    result := .none
    rxSeq := 0
    rxSeqc := 0
    lastCtrl := 0
    calcCrc := crcInit
    rxCrc := 0
    idx := 0
    phase := .ctrl
    state := .awaitingStart }

/-- START with `v[0] = 1` and `BUSY = 0` (R212): a region that wraps faults; one that is not ordinary memory is refused
(20_memory.md R64, log 17). -/
def startTransfer (s : State) : Answer :=
  if s.regionWraps then .fault .regionWrap
  else if s.regionHitsDevice then .refused .deviceRegion
  else .next (openSession s)

/-- START: a write to `CTRL` (R212). Only `v[0]` is read; it is ignored while `BUSY = 1`. -/
def execStart (v : Word) (s : State) : Answer :=
  guarded (.start v) s (if !v.getLsbD 0 || s.busy then .next s else startTransfer s)

/-- CTRL_READ: reads zero (R213). -/
def execCtrlRead (s : State) : Answer := guarded .ctrlRead s (.next (readReg 0 s))

/-- STATUS_READ (R214). -/
def execStatusRead (s : State) : Answer := guarded .statusRead s (.next (readReg s.statusWord s))

/-- STATUS_WRITE: no effect (R215). -/
def execStatusWrite (v : Word) (s : State) : Answer := guarded (.statusWrite v) s (.next s)

/-- BUF_BASE_ACCESS (R216): a write is ignored while `BUSY = 1`. -/
def execBufBaseAccess (a : RegAccess) (s : State) : Answer :=
  guarded (.bufBaseAccess a) s (match a with
    | .read => .next (readReg s.bufBase s)
    | .write v => .next (if s.busy then s else { s with bufBase := addressBits s.cfg.aw v }))

/-- BUF_LEN_ACCESS (R217): a write is ignored while `BUSY = 1`. -/
def execBufLenAccess (a : RegAccess) (s : State) : Answer :=
  guarded (.bufLenAccess a) s (match a with
    | .read => .next (readReg s.bufLen s)
    | .write v => .next (if s.busy then s else { s with bufLen := v }))

/-- COUNT_READ (R218): a write has no effect. -/
def execCountRead (a : RegAccess) (s : State) : Answer :=
  guarded (.countRead a) s (match a with
    | .read => .next (readReg s.count s)
    | .write _ => .next s)

/-- SEQ_READ (R219): a write has no effect. -/
def execSeqRead (a : RegAccess) (s : State) : Answer :=
  guarded (.seqRead a) s (match a with
    | .read => .next (readReg s.seqWord s)
    | .write _ => .next s)

/-- CRC_READ (R220): a write has no effect. -/
def execCrcRead (a : RegAccess) (s : State) : Answer :=
  guarded (.crcRead a) s (match a with
    | .read => .next (readReg s.crcWord s)
    | .write _ => .next s)

/-- RESERVED_1C: reads zero, a write has no effect (R221). -/
def execReserved1c (a : RegAccess) (s : State) : Answer :=
  guarded (.reserved1c a) s (match a with
    | .read => .next (readReg 0 s)
    | .write _ => .next s)

end Sys2Proof.Machine
end

