-- ==== Sys2Proof/Machine/ResetOp.lean ====
section
/-! DEFINITION. RESET (70_reset_and_hazards.md R270, R271). -/

namespace Sys2Proof.Machine

/-- RESET: the write in flight, where a commit is interrupted, lands or not (R271); then every register takes its
reset value (R270). A pending `TXB` is dropped, and nothing is sent. -/
def execReset (s : State) : Answer := guarded .reset s (.next (resetRegisters (writeInFlight s)))

end Sys2Proof.Machine
end

