-- ==== Sys2Proof/Machine/Transmit.lean ====
section
/-! DEFINITION. Family tx8, the bytes the block emits (`TXB <- value, TXV <- 1`), and TX_TAKE, which drains them
(42_transfer_fsm.md R183). -/

namespace Sys2Proof.Machine

/-- TX_C: ASCII `'C'` (42_transfer_fsm.md R172, 43_host_interface.md R212). -/
def execTxC (s : State) : Answer := guarded .txC s (.next (emit byteC s))

/-- TX_ACK_FRAME: ACK after a commit (41_packet_reader.md R151). -/
def execTxAckFrame (s : State) : Answer := guarded .txAckFrame s (.next (emit byteACK s))

/-- TX_ACK_EOT: ACK on EOT (42_transfer_fsm.md R174). -/
def execTxAckEot (s : State) : Answer := guarded .txAckEot s (.next (emit byteACK s))

/-- TX_CAN: CAN on a failed validation (41_packet_reader.md R141). -/
def execTxCan (s : State) : Answer := guarded .txCan s (.next (emit byteCAN s))

/-- TX_TAKE: the transport takes the byte offered (42_transfer_fsm.md R183, R185). -/
def execTxTake (s : State) : Answer := guarded .txTake s (.next (takeByte s))

end Sys2Proof.Machine
end

