-- ==== Sys2Proof/Machine/Transport.lean ====
section
/-! DEFINITION. Family event, the transport's errors and the timer's expiry (42_transfer_fsm.md R172, R179 to R181),
and a clock cycle in which no agent moves (R185). -/

namespace Sys2Proof.Machine

/-- POLL_TIMEOUT: `Timeout` in AWAITING_START sends `'C'` again (R172). -/
def execPollTimeout (s : State) : Answer := guarded .pollTimeout s (.next (emit byteC (timerExpired s)))

/-- RX_TIMEOUT: `Timeout` in RECEIVING aborts; nothing is sent (R180). -/
def execRxTimeout (s : State) : Answer := guarded .rxTimeout s (.next (abort .rxTimeout (timerExpired s)))

/-- RX_ERROR_AWAIT: `RxErr` in AWAITING_START is the first read of RECEIVING and aborts (R179). -/
def execRxErrorAwait (s : State) : Answer :=
  guarded .rxErrorAwait s (.next (abort .rxError { s with state := .receiving }))

/-- RX_ERROR: `RxErr` in RECEIVING aborts; nothing is sent (R181). -/
def execRxError (s : State) : Answer := guarded .rxError s (.next (abort .rxError s))

end Sys2Proof.Machine
end

