-- ==== Sys2Proof/Machine/Dispatch.lean ====
section
/-! DEFINITION. One arm per operation, each a direct call of its meaning. -/

namespace Sys2Proof.Machine

def exec (i : Instr) (s : State) : Host.Outcome State Fault Refusal :=
  match i with
  | .soh => Sys2Proof.Machine.execSoh s
  | .eot => Sys2Proof.Machine.execEot s
  | .canRx => Sys2Proof.Machine.execCanRx s
  | .escRx => Sys2Proof.Machine.execEscRx s
  | .otherCtrl b => Sys2Proof.Machine.execOtherCtrl b s
  | .nakRx => Sys2Proof.Machine.execNakRx s
  | .ackRx => Sys2Proof.Machine.execAckRx s
  | .stxRx => Sys2Proof.Machine.execStxRx s
  | .cRx => Sys2Proof.Machine.execCRx s
  | .handshakeReply b => Sys2Proof.Machine.execHandshakeReply b s
  | .seq b => Sys2Proof.Machine.execSeq b s
  | .seqc b => Sys2Proof.Machine.execSeqc b s
  | .data b => Sys2Proof.Machine.execData b s
  | .crch b => Sys2Proof.Machine.execCrch b s
  | .crcl b => Sys2Proof.Machine.execCrcl b s
  | .validate => Sys2Proof.Machine.execValidate s
  | .reject cause => Sys2Proof.Machine.execReject cause s
  | .accept => Sys2Proof.Machine.execAccept s
  | .commitStep => Sys2Proof.Machine.execCommitStep s
  | .commitEnd => Sys2Proof.Machine.execCommitEnd s
  | .txC => Sys2Proof.Machine.execTxC s
  | .txAckFrame => Sys2Proof.Machine.execTxAckFrame s
  | .txAckEot => Sys2Proof.Machine.execTxAckEot s
  | .txCan => Sys2Proof.Machine.execTxCan s
  | .pollTimeout => Sys2Proof.Machine.execPollTimeout s
  | .rxTimeout => Sys2Proof.Machine.execRxTimeout s
  | .rxErrorAwait => Sys2Proof.Machine.execRxErrorAwait s
  | .rxError => Sys2Proof.Machine.execRxError s
  | .txTake => Sys2Proof.Machine.execTxTake s
  | .reset => Sys2Proof.Machine.execReset s
  | .start v => Sys2Proof.Machine.execStart v s
  | .ctrlRead => Sys2Proof.Machine.execCtrlRead s
  | .statusRead => Sys2Proof.Machine.execStatusRead s
  | .statusWrite v => Sys2Proof.Machine.execStatusWrite v s
  | .bufBaseAccess a => Sys2Proof.Machine.execBufBaseAccess a s
  | .bufLenAccess a => Sys2Proof.Machine.execBufLenAccess a s
  | .countRead a => Sys2Proof.Machine.execCountRead a s
  | .seqRead a => Sys2Proof.Machine.execSeqRead a s
  | .crcRead a => Sys2Proof.Machine.execCrcRead a s
  | .reserved1c a => Sys2Proof.Machine.execReserved1c a s
  | .crcUpdate acc b => Sys2Proof.Machine.execCrcUpdate acc b s

end Sys2Proof.Machine
end

