-- ==== Sys2Proof/Machine/HostMemory.lean ====
section
/-! DEFINITION. The host's accesses to destination memory (20_memory.md R66, R67). They are events of the environment
with no row in spec/opcode_table.json. -/

namespace Sys2Proof.Machine

/-- What a host access to destination memory meets before its effect: an address that `AW` bits do not reach does not
exist (log 18), and a range that is not ordinary memory has no meaning here (R64). -/
def hostAccess (a : Nat) (s : State) (answer : Answer) : Answer :=
  if 2 ^ s.cfg.aw ≤ a then .fault .noSuchAddress
  else if isDevice s.cfg a then .refused .deviceRegion
  else answer

/-- Whether a host read of an address races with a possible commit: `BUSY = 1`, in the region, at an offset of
`COUNT` or more (R66). -/
def State.racesCommit (s : State) (a : Nat) : Bool :=
  s.busy && s.inRegion a && s.bufBase.toNat + s.count.toNat ≤ a

/-- A host read of a byte of destination memory (R66): a draw where it races with a commit, and else the last value
written there. DESIGN CHOICE (log 32, unsafe for statements about such a read): a read outside the region, of which R66 and
00_scope.md R6 say nothing, returns the last value written there, while `BUSY = 1` too. -/
def hostMemRead (addr : Word) (s : State) : Answer :=
  hostAccess addr.toNat s (.next (
    if s.racesCommit addr.toNat then { s with memData := Config.freeByte s.draws, draws := s.draws + 1 }
    else { s with memData := s.lastWritten addr.toNat }))

/-- A host write of a byte of destination memory: a fault inside the region while `BUSY = 1` (R67). Any other write of an
ordinary byte stores it, outside the region while `BUSY = 1` too. DESIGN CHOICE (log 30, unsafe for statements about such
a byte): R66 and R67 speak of the region only, and 00_scope.md R6 of the block as the only writer. -/
def hostMemWrite (addr : Word) (v : Byte) (s : State) : Answer :=
  hostAccess addr.toNat s (
    if s.busy && s.inRegion addr.toNat then .fault .hostBufferWrite
    else .next { s with mem := Mem.write s.mem addr.toNat v })

end Sys2Proof.Machine
end

