-- ==== Sys2Proof/Machine/Fetch.lean ====
section
/-! DEFINITION. What the machine does next: the first pending event that is enabled (42_transfer_fsm.md R170, log 1);
where there is none, one that the environment freely chooses among its liberties (60_exceptions.md R260, log 34);
and where it has none, the block's own CommitStep, or else a clock cycle in which no agent moves (log 2). -/

namespace Sys2Proof.Machine

/-- What a step is: an operation to run at a state, or an answer that no operation of the table gives. -/
inductive Fetched where
  | run (i : Instr) (s : State)
  | answer (o : Answer)

/-- The first event of the list that can occur at the position, and the list without it. An event that is not enabled
stays where it is (R170, R184). -/
def pick (p : Position) : List Event → Option (Event × List Event)
  | [] => none
  | e :: rest =>
    if occurs p e then some (e, rest)
    else match pick p rest with
      | none => none
      | some (e', rest') => some (e', e :: rest')

/-- One clock cycle in which no agent moves (R185, log 3): while the block waits `TMR` counts down, and on reaching 0
it produces `Timeout`. -/
def silentCycle (s : State) : Fetched :=
  if s.position.waiting then
    if s.tmr ≤ 1 then
      .run (if s.state = .awaitingStart then .pollTimeout else .rxTimeout) (timerExpired s)
    else .answer (.next { s with tmr := s.tmr - 1 })
  else .answer (.next s)

/-- An event that the opcode table has no row for: a host access to destination memory, a silent cycle. -/
def fetchOther (e : Event) (s : State) : Fetched :=
  match e with
  | .memRead addr => .answer (hostMemRead addr s)
  | .memWrite addr v => .answer (hostMemWrite addr v s)
  | .idle => silentCycle s
  | _ => .answer (.next s)

/-- An event that occurs, at the state from which it has been taken. -/
def fetchEvent (e : Event) (s : State) : Fetched :=
  match decode s.position e with
  | .ok i => .run i s
  | .error r => if r = .subwordAccess then .answer (.refused .subwordAccess) else fetchOther e s

/-- A host access, to a register or to destination memory. -/
def isHostAccess : Event → Bool
  | .hostWrite _ _ _ | .hostRead _ _ | .memRead _ | .memWrite _ _ => true
  | .rxByte _ | .rxErr | .timeout | .txTake | .commitStep | .reset | .idle => false

/-- Whether a liberty can be chosen: it can occur, and it is no host access in a wait in RECEIVING that has no patience left.
Such a wait goes on before the host moves again, so accesses without end do not put off its end (R260, log 34). -/
def State.allows (s : State) (e : Event) : Bool :=
  occurs s.position e && !(isHostAccess e && s.position.reading && s.patience == 0)

/-- The environment's free choice among its liberties (R170 leaves it open, log 34). -/
def State.choice (s : State) : Option Event :=
  match s.liberties.filter s.allows with
  | [] => none
  | e :: es => some ((e :: es).getD (Config.freeChoice s.draws % (es.length + 1)) e)

/-- The patience after an event has been taken from the list: what it was after a host access, and a fresh free value after
any other event (log 34). -/
def State.patienceAfter (s : State) (e : Event) : Nat :=
  if isHostAccess e then s.patience else Config.freePatience s.draws

/-- The patience after an event has been chosen: a host access in a wait in RECEIVING uses up one. -/
def State.patienceChoosing (s : State) (e : Event) : Nat :=
  if isHostAccess e && s.position.reading then s.patience - 1 else s.patienceAfter e

/-- What the block does where the environment does nothing (log 2): its CommitStep, or a silent clock cycle. -/
def fetchOwn (s : State) : Fetched :=
  if s.position.committing then .run .commitStep s else silentCycle s

/-- What the machine does next. A parameter choice the model does not admit marks the run at once (60_exceptions.md
R252, log 5). -/
def fetch (s : State) : Fetched :=
  match configRefusal s.cfg with
  | some r => .answer (.refused r)
  | none =>
    match pick s.position s.events with
    | some (e, rest) => fetchEvent e { s with events := rest, patience := s.patienceAfter e }
    | none =>
      match s.choice with
      | some e => fetchEvent e { s with draws := s.draws + 1, patience := s.patienceChoosing e }
      | none => fetchOwn s

/-- A state at whose next step the event of a word of spec/opcode_table.json occurs (log 19): for a received byte, in
`(RECEIVING, CTRL)` with `TXV = 0` and the byte next in the transport; for a register access, the access is next. -/
def placeWord (s : State) (nbits w : Nat) : State :=
  match tableEvent nbits w with
  | none => s
  | some (.rxByte b) =>
    { s with state := .receiving, phase := .ctrl, txv := false, events := .rxByte b :: s.events }
  | some e => { s with events := e :: s.events }

end Sys2Proof.Machine
end

