-- ==== Sys2Proof/Machine/Ports.lean ====
section
/-! DEFINITION. The ports of 30_encoding.md R88: what the block drives, and the events one clock cycle of its inputs
stands for (R89, 60_exceptions.md R246, log 24). -/

namespace Sys2Proof.Machine

/-- The inputs of one clock cycle (R88). `crcIdle` is the CRC engine's own condition, always true with
`CRC_IMPL = PARALLEL` (40_crc_engine.md R113). -/
structure Pins where
  rst : Bool
  rxValid : Bool
  rxData : Byte
  rxErr : Bool
  txReady : Bool
  memAck : Bool
  regSel : Bool
  regWe : Bool
  regAddr : BitVec 3
  regWdata : Word
  crcIdle : Bool
deriving DecidableEq, Repr

/-- `rx_ready` (R88): the block waits for a byte and the CRC engine is idle. -/
def State.rxReady (s : State) (crcIdle : Bool) : Bool := s.position.waiting && crcIdle

/-- `tx_valid` (R88). -/
def State.txValid (s : State) : Bool := s.txv

/-- `tx_data` (R88). -/
def State.txData (s : State) : Byte := s.txb

/-- `mem_we` (R88, R89). -/
def State.memWe (s : State) : Bool := s.position.committing

/-- `mem_addr` (R88, 20_memory.md R62). DESIGN CHOICE (log 31, unsafe for statements about the port while `mem_we = 0`,
of which R88 says nothing): the sum is driven then too. -/
def State.memAddr (s : State) : Nat := s.destAddress

/-- `mem_wdata` (R88, 41_packet_reader.md R150). DESIGN CHOICE (log 31, as for `mem_addr`): while `mem_we = 0` it is
`PKT[IDX]` too, and 0x00 where `IDX` is 128 or more. -/
def State.memWdata (s : State) : Byte := s.stagedByte

/-- `reg_rdata` as the bytes of the host bus (R88, 20_memory.md R63). -/
def State.rdataBytes (s : State) : List Byte := busBytes s.cfg s.rdata

/-- Whether a bus address selects the register window, and which word (`reg_sel`, `reg_addr[4:2]`, 43_host_interface.md
R210). -/
def selectRegister (c : Config) (busAddress : Nat) : Option (BitVec 3) :=
  if registerAddress c 0 ≤ busAddress && busAddress < registerAddress c 0 + 32 then
    some (BitVec.ofNat 3 ((busAddress - registerAddress c 0) / 4))
  else none

/-- The host access of a cycle (R88). -/
def hostEvent (p : Pins) : List Event :=
  if !p.regSel then []
  else if p.regWe then [.hostWrite (p.regAddr ++ 0#2) .word p.regWdata]
  else [.hostRead (p.regAddr ++ 0#2) .word]

/-- The block's own event of a cycle: a byte or an error taken, the offered byte taken, or a write acked (R89); where
there is none, the cycle is silent for the block. A byte taken as the timer would expire wins (R246). -/
def blockEvent (p : Pins) (s : State) : List Event :=
  let tx : List Event := if s.txValid && p.txReady then [.txTake] else []
  let rx : List Event :=
    if s.rxReady p.crcIdle && p.rxValid then [if p.rxErr then .rxErr else .rxByte p.rxData] else []
  let commit : List Event := if s.memWe && p.memAck then [.commitStep] else []
  match tx ++ rx ++ commit with
  | [] => [.idle]
  | es => es

/-- The events one clock cycle stands for (R246): `rst` overrides every other input; a host access sees the registers
from before the cycle. -/
def cycleEvents (p : Pins) (s : State) : List Event :=
  if p.rst then [.reset] else hostEvent p ++ blockEvent p s

/-- A clock cycle's inputs presented to the machine, ahead of what is pending. -/
def State.present (p : Pins) (s : State) : State := { s with events := cycleEvents p s ++ s.events }

end Sys2Proof.Machine
end

