-- ==== Sys2Proof/Safety.lean ====
section
/-! DEFINITION. What claims about XMRX are stated in: the invariants of 10_state.md R43, the record a frame keeps of
itself, the end of a run and what is observed of it (42_transfer_fsm.md R187, R188), and a launch
(70_reset_and_hazards.md R272). -/

namespace Sys2Proof.Machine

/-- The block is in RECEIVING, in a phase, and offers no byte: the context of the rows that read a byte there. -/
abbrev State.receivingIn (s : State) (ph : Phase) : Prop := s.state = .receiving ∧ s.phase = ph ∧ s.txv = false

/-- The block is in the handshake and offers no byte. -/
abbrev State.awaiting (s : State) : Prop := s.state = .awaitingStart ∧ s.txv = false

/-- The block reads a byte of RECEIVING, in any phase but COMMIT. -/
abbrev State.reading (s : State) : Prop := s.state = .receiving ∧ s.phase ≠ .commit ∧ s.txv = false

/-- A byte the block may emit (10_state.md R43, point 5): `'C'`, ACK or CAN. -/
abbrev emittable (b : Byte) : Prop := b = 0x43 ∨ b = 0x06 ∨ b = 0x18

/-- A result that an abort leaves (60_exceptions.md R242). -/
abbrev isAbortCause (r : XferResult) : Prop := r ≠ .none ∧ r ≠ .ok

/-- The invariant of 10_state.md R43, with what it needs to be kept by every step and what R24, R25, R26, R61, R64 and
R183 derive from the rules. -/
structure BlockInv (s : State) : Prop where
  /-- R43, point 1, and R24. -/
  phaseOnlyReceiving : s.phase ≠ .ctrl → s.state = .receiving
  /-- R183: inside a frame no byte is offered. -/
  frameOffersNothing : s.phase ≠ .ctrl → s.txv = false
  /-- R43, point 2. -/
  idxInFrame : s.phase = .data ∨ s.phase = .commit → s.idx.toNat ≤ 127
  /-- R25: 128 in CRCH and CRCL. -/
  idxInTrailer : s.phase = .crch ∨ s.phase = .crcl → s.idx = 128
  /-- R25: 0 elsewhere. -/
  idxElsewhere : s.phase = .ctrl ∨ s.phase = .seq ∨ s.phase = .seqc → s.idx = 0
  /-- R43, point 3, and R29. -/
  countAligned : s.count.toNat % 128 = 0
  /-- R43, point 3. -/
  countFits : s.busy = true → s.count.toNat ≤ s.bufLen.toNat
  /-- 41_packet_reader.md R142: a frame is committed only where it fits. -/
  commitFits : s.phase = .commit → s.count.toNat + 128 ≤ s.bufLen.toNat
  /-- 43_host_interface.md R212: START clears `COUNT`, and no frame is accepted before the handshake ends. -/
  countAwaiting : s.state = .awaitingStart → s.count = 0
  /-- R43, point 4. -/
  seqTracksCount : s.expSeq = BitVec.ofNat 8 (1 + s.count.toNat / 128)
  /-- R43, point 5. -/
  offersEmittable : s.txv = true → emittable s.txb
  /-- 20_memory.md R61: the region of a running transfer does not wrap. -/
  regionFits : s.busy = true → s.bufBase.toNat + s.bufLen.toNat ≤ 2 ^ s.cfg.aw
  /-- 20_memory.md R64: the region of a running transfer is ordinary memory. -/
  regionOrdinary : s.busy = true → s.regionHitsDevice = false
  /-- R27: `BUF_BASE` has `AW` bits. -/
  baseFits : s.bufBase.toNat < 2 ^ s.cfg.aw
  /-- Memory keeps its canonical form. -/
  memoryCanonical : Mem.wf s.mem
  /-- R26: no result while a transfer has not ended. -/
  resultNone : s.state = .idle ∨ s.state = .awaitingStart ∨ s.state = .receiving → s.result = .none
  /-- R26: DONE is RESULT OK. -/
  resultDone : s.state = .done → s.result = .ok
  /-- R26, 60_exceptions.md R242: ABORTED names its cause. -/
  resultAborted : s.state = .aborted → isAbortCause s.result
  /-- 10_state.md R20: `TMR` fits its width, where the configuration gives it the width that R20 asks for (log 33). -/
  timerFits : s.cfg.timerFits → s.tmr < 2 ^ s.cfg.tw

/-- The record a frame keeps of itself (10_state.md R33, 41_packet_reader.md R140): the accumulator is the CRC of the
payload bytes received so far, and a frame being committed has passed every check. -/
structure FrameRecord (s : State) : Prop where
  header : s.phase = .seq ∨ s.phase = .seqc → s.calcCrc = crcInit
  payload : s.phase = .data → s.calcCrc = crc16 crcInit (s.pkt.toList.take s.idx.toNat)
  trailer : s.phase = .crch ∨ s.phase = .crcl ∨ s.phase = .commit → s.calcCrc = crc16 crcInit s.pkt.toList
  accepted : s.phase = .commit → s.rxCrc = s.calcCrc ∧ s.rxSeq = s.expSeq ∧ s.rxSeqc = ~~~s.rxSeq

/-! ## The end of a run (42_transfer_fsm.md R187, R188) -/

/-- A state in which a run can end: `BUSY = 0`. A run that met a fault or a refusal has no final state: the step
answered so, and the marks are never cleared (10_state.md R39). -/
abbrev State.final (s : State) : Prop := s.busy = false

/-- What is observed of a finished run (R187). -/
structure Observation where
  result : XferResult
  count : Word
  region : List (Nat × Byte)
  sent : List Byte
deriving DecidableEq, Repr

/-- The observation of a state (R187): of the destination region, the bytes something has written. -/
def State.observe (s : State) : Observation where
  result := s.result
  count := s.count
  region := s.mem.filter fun c => s.inRegion c.1
  sent := s.txStream

/-- The software return value the registers stand for (R188): a length only where the transfer succeeded. -/
def State.returnValue (s : State) : Option Nat :=
  if s.result = .ok then some s.count.toNat else none

/-! ## The environment (60_exceptions.md R260) -/

/-- The events the environment may present next: those that are pending, and its liberties (logs 1 and 34). -/
def State.moves (s : State) : List Event := s.events ++ s.liberties

/-- The environment makes no move: nothing is pending, and it has no liberties. -/
abbrev State.quiet (s : State) : Prop := s.events = [] ∧ s.liberties = []

/-! ## Runs -/

/-- `k` steps, up to the first fault or refusal. -/
def run : Nat → State → Answer
  | 0, s => .next s
  | k + 1, s =>
    match step s with
    | .next t => run k t
    | .fault r => .fault r
    | .refused r => .refused r

/-! ## A launch (70_reset_and_hazards.md R272) -/

/-- Steps 1, 3 and 4 of R272 for a transfer of `n` frames: not busy, nothing left in the transport, and a region that
does not wrap, is ordinary memory and holds every frame. -/
structure Launchable (n : Nat) (s : State) : Prop where
  notBusy : s.busy = false
  transportEmpty : ∀ e ∈ s.events, e ≠ .rxErr ∧ ∀ b, e ≠ .rxByte b
  noWrap : s.regionWraps = false
  ordinary : s.regionHitsDevice = false
  room : 128 * n ≤ s.bufLen.toNat

end Sys2Proof.Machine
end

