-- ==== Sys2Proof/Certificates/Slice0/Obligations.lean ====
section
/-! DEFINITION. The statements about XMRX, from the numbered rules of spec/. Each docstring names the rule it formalises.
A statement about what an operation does has as its conclusion the next state exec answers, every field of it: a field
that is not named is unchanged. Where one gives `TMR` a value, the reload is that of 42_transfer_fsm.md R185 and the 0
after a Timeout that of 30_encoding.md R89; that the model holds the timer at all is log 3. -/

open Sys2Proof Sys2Proof.Machine

/-! ## Reset and the invariants -/

/-- 10_state.md R42: what reset leaves in every element the rule gives a value. -/
def Obligations.ResetLeavesTheTableOfValues : Prop :=
  State.reset.state = .idle ∧ State.reset.phase = .ctrl ∧ State.reset.idx = 0 ∧ State.reset.result = .none ∧
  State.reset.bufBase = 0 ∧ State.reset.bufLen = 0 ∧ State.reset.count = 0 ∧ State.reset.expSeq = 0x01 ∧
  State.reset.rxSeq = 0x00 ∧ State.reset.rxSeqc = 0x00 ∧ State.reset.lastCtrl = 0x00 ∧
  State.reset.calcCrc = 0x0000 ∧ State.reset.rxCrc = 0x0000 ∧ State.reset.txv = false ∧ State.reset.tmr = 0 ∧
  State.reset.position.waiting = false

/-- 10_state.md R43: the invariants hold right after reset. -/
def Obligations.ResetMeetsTheInvariants : Prop := BlockInv State.reset ∧ FrameRecord State.reset

/-- 10_state.md R43 (with R24, R25, R26, R61, R183): every step keeps the invariant, from every state that meets it. -/
def Obligations.EveryStepKeepsTheBlockInvariant : Prop :=
  ∀ s t, BlockInv s → step s = .next t → BlockInv t

/-- 10_state.md R33 and 41_packet_reader.md R140: every step keeps the record a frame makes of itself. So in every phase
the accumulator is the CRC of the payload received so far, and what is being committed has passed every check. -/
def Obligations.EveryStepKeepsFrameRecord : Prop :=
  ∀ s t, FrameRecord s → step s = .next t → FrameRecord t

/-! ## Encoding and the step -/

/-- 30_encoding.md R81, R91: decoding the event that encodes a well-formed operation, in that operation's context, gives
it back with every operand. -/
def Obligations.DecodeOfEncodeGivesTheOperation : Prop :=
  ∀ (i : Instr) (p : Position) (e : Event),
    i.wf = true → encode i = some e → i.inContext p = true → decode p e = .ok i

/-- 42_transfer_fsm.md R170: what a step is. The first pending event that can occur is taken, and whatever waits before it
stays in order; where none can occur, the event the environment chooses among its liberties occurs; where it chooses none,
the block commits by itself or a silent clock cycle passes. The step of an event is exec of the operation it decodes to, at
the state that the event has left; an event that selects no row is a host access to memory, a misaligned access or a silent
cycle, and the step is that. The list, the block's own move, the silent cycle and the liberties with their patience are the
model's choices (logs 1, 2, 3, 10 and 34). -/
def Obligations.StepRunsTheDecodedOperation : Prop :=
  ∀ s : State, s.cfg.Admitted →
    let silent : State → Prop := fun u =>
      (s.position.waiting = false → step s = .next u) ∧
      (s.position.waiting = true → 1 < s.tmr → step s = .next { u with tmr := s.tmr - 1 }) ∧
      (s.position.waiting = true → s.tmr ≤ 1 →
        step s = exec (if s.state = .awaitingStart then .pollTimeout else .rxTimeout) { u with tmr := 0 })
    let takes : Event → State → Prop := fun e u =>
      (∀ i, decode s.position e = .ok i → step s = exec i u) ∧
      (∀ a, e = .memRead a → step s = hostMemRead a u) ∧
      (∀ a v, e = .memWrite a v → step s = hostMemWrite a v u) ∧
      (decode s.position e = .error .subwordAccess → step s = .refused .subwordAccess) ∧
      (e = .idle → silent u)
    (∀ (waits rest : List Event) (e : Event),
      s.events = waits ++ e :: rest → (∀ x ∈ waits, occurs s.position x = false) → occurs s.position e = true →
      takes e { s with
        events := waits ++ rest
        patience := if isHostAccess e then s.patience else Config.freePatience s.draws }) ∧
    ((∀ x ∈ s.events, occurs s.position x = false) →
      (∀ e, s.choice = some e → e ∈ s.liberties ∧ occurs s.position e = true ∧
        takes e { s with
          draws := s.draws + 1
          patience := if isHostAccess e then (if s.position.reading then s.patience - 1 else s.patience)
            else Config.freePatience s.draws }) ∧
      (s.choice = none →
        (∀ e ∈ s.liberties, occurs s.position e = true →
          isHostAccess e = true ∧ s.position.reading = true ∧ s.patience = 0) ∧
        (s.position.committing = true → step s = exec .commitStep s) ∧
        (s.position.committing = false → silent s)))

/-- 30_encoding.md R81: a byte read in `PHASE = CTRL` selects the first row whose full 8 bits match; the four bytes that
spec/opcode_table.json names besides are instances of the last row (log 20). -/
def Obligations.ControlByteSelectsTheFirstMatch : Prop :=
  ∀ (p : Position) (b : Byte), p.txv = false → p.state = .receiving → p.phase = .ctrl →
    (b = 0x01 → decode p (.rxByte b) = .ok .soh) ∧
    (b = 0x04 → decode p (.rxByte b) = .ok .eot) ∧
    (b = 0x18 → decode p (.rxByte b) = .ok .canRx) ∧
    (b = 0x1B → decode p (.rxByte b) = .ok .escRx) ∧
    (b ≠ 0x01 → b ≠ 0x04 → b ≠ 0x18 → b ≠ 0x1B →
      (b = 0x15 ∧ decode p (.rxByte b) = .ok .nakRx) ∨ (b = 0x06 ∧ decode p (.rxByte b) = .ok .ackRx) ∨
      (b = 0x02 ∧ decode p (.rxByte b) = .ok .stxRx) ∨ (b = 0x43 ∧ decode p (.rxByte b) = .ok .cRx) ∨
      (b ≠ 0x15 ∧ b ≠ 0x06 ∧ b ≠ 0x02 ∧ b ≠ 0x43 ∧ decode p (.rxByte b) = .ok (.otherCtrl b)))

/-- 30_encoding.md R91, 43_host_interface.md R211: a few events written out, one or two of each family, decode to the
operations they stand for. -/
def Obligations.SampleEventsDecode : Prop :=
  decode ⟨.receiving, .ctrl, 0, false⟩ (.rxByte 0x01) = .ok .soh ∧
  decode ⟨.receiving, .ctrl, 0, false⟩ (.rxByte 0x79) = .ok (.otherCtrl 0x79) ∧
  decode ⟨.awaitingStart, .ctrl, 0, false⟩ (.rxByte 0x01) = .ok (.handshakeReply 0x01) ∧
  decode ⟨.receiving, .seq, 0, false⟩ (.rxByte 0x04) = .ok (.seq 0x04) ∧
  decode ⟨.receiving, .data, 127, false⟩ (.rxByte 0x18) = .ok (.data 0x18) ∧
  decode ⟨.receiving, .commit, 127, false⟩ .commitStep = .ok .commitStep ∧
  decode ⟨.receiving, .crch, 128, false⟩ .timeout = .ok .rxTimeout ∧
  decode ⟨.done, .ctrl, 0, true⟩ .txTake = .ok .txTake ∧
  decode ⟨.idle, .ctrl, 0, false⟩ (.hostWrite 0x00 .word 1) = .ok (.start 1) ∧
  decode ⟨.idle, .ctrl, 0, false⟩ (.hostRead 0x14 .word) = .ok (.seqRead .read) ∧
  decode ⟨.receiving, .commit, 5, false⟩ (.rxByte 0x01) = .error .committing

/-- 42_transfer_fsm.md R184: a receive event can occur exactly where the block waits for a byte (for a byte in
`PHASE = DATA`, with `IDX <= 127`, which the invariant gives; log 28). -/
def Obligations.ReceiveEventsOccurExactlyWhereTheBlockWaits : Prop :=
  ∀ (s : State) (b : Byte), (s.phase = .data → s.idx.toNat ≤ 127) →
    (occurs s.position (.rxByte b) = true ↔ s.awaiting ∨ s.reading) ∧
    (occurs s.position .rxErr = true ↔ s.awaiting ∨ s.reading) ∧
    (occurs s.position .timeout = true ↔ s.awaiting ∨ s.reading) ∧
    (∀ crcIdle, s.rxReady crcIdle = true ↔ (s.awaiting ∨ s.reading) ∧ crcIdle = true)

/-- 42_transfer_fsm.md R170, log 6: an operation outside its context is refused by name. The refusal is the model's
choice (log 6); the rule says only that such an event does not occur. -/
def Obligations.OutsideItsContextNothingRuns : Prop :=
  ∀ (i : Instr) (s : State), s.cfg.Admitted → i.inContext s.position = false →
    exec i s = .refused .notEnabled

/-! ## Control bytes -/

/-- 41_packet_reader.md R133, with 42_transfer_fsm.md R171 and R185. -/
def Obligations.SohStartsAFrame : Prop :=
  ∀ s : State, s.cfg.Admitted → s.receivingIn .ctrl →
    exec .soh s = .next { s with
      lastCtrl := 0x01, calcCrc := 0x0000, idx := 0, phase := .seq, tmr := s.cfg.tByte }

/-- 42_transfer_fsm.md R174. -/
def Obligations.EotEndsTheTransfer : Prop :=
  ∀ s : State, s.cfg.Admitted → s.receivingIn .ctrl →
    exec .eot s = .next { s with lastCtrl := 0x04, txb := 0x06, txv := true, state := .done, result := .ok }

/-- 42_transfer_fsm.md R175 and R176: one CAN or ESC aborts, and nothing is emitted. -/
def Obligations.SenderCancelAndEscapeAbort : Prop :=
  ∀ s : State, s.cfg.Admitted → s.receivingIn .ctrl →
    exec .canRx s = .next { s with
      lastCtrl := 0x18, state := .aborted, result := .senderCan, phase := .ctrl, idx := 0 } ∧
    exec .escRx s = .next { s with
      lastCtrl := 0x1B, state := .aborted, result := .senderEsc, phase := .ctrl, idx := 0 }

/-- 42_transfer_fsm.md R177: any other control byte, NAK, ACK, STX and `'C'` among them, is recorded and discarded, or
aborts, as parameter `UNKNOWN_CTRL` says. Under `DISCARD` an environment that presents such bytes without end keeps the block in
`(RECEIVING, CTRL)` for ever, for every `T_BYTE`, and while the host polls the registers too (R177, 60_exceptions.md R260;
the form of such an environment is log 34). -/
def Obligations.UnrecognisedControlBytes : Prop :=
  (∀ (s : State) (b : Byte), s.cfg.Admitted → s.receivingIn .ctrl →
    let after : Byte → State := fun c => match s.cfg.unknownCtrl with
      | .discard => { s with lastCtrl := c, tmr := s.cfg.tByte }
      | .abort => { s with
          lastCtrl := c, state := .aborted, result := .unknownCtrl, phase := .ctrl, idx := 0 }
    (b ≠ 0x01 → b ≠ 0x04 → b ≠ 0x18 → b ≠ 0x1B → exec (.otherCtrl b) s = .next (after b)) ∧
    exec .nakRx s = .next (after 0x15) ∧ exec .ackRx s = .next (after 0x06) ∧
    exec .stxRx s = .next (after 0x02) ∧ exec .cRx s = .next (after 0x43)) ∧
  (∀ (s : State) (k : Nat), s.cfg.Admitted → s.receivingIn .ctrl → s.cfg.unknownCtrl = .discard →
    s.events = [] → (∃ b, .rxByte b ∈ s.liberties) →
    (∀ e ∈ s.liberties, (∃ b : Byte, e = .rxByte b ∧ b ≠ 0x01 ∧ b ≠ 0x04 ∧ b ≠ 0x18 ∧ b ≠ 0x1B) ∨
      ∃ off : Offset, e = .hostRead off .word ∧ off.toNat % 4 = 0) →
    ∃ c n p w, run k s = .next { s with lastCtrl := c, tmr := n, draws := s.draws + k, patience := p, rdata := w })

/-- 42_transfer_fsm.md R173: the byte that answers the handshake is handled in the same step as a control byte of
RECEIVING. In every state that meets the invariant an EOT ends the transfer with `COUNT = 0` and `RESULT = OK`. -/
def Obligations.HandshakeReplyIsTheFirstControlByte : Prop :=
  (∀ (s : State) (b : Byte), s.cfg.Admitted → s.awaiting →
    exec (.handshakeReply b) s = .next (
      if b = 0x01 then { s with
        state := .receiving, lastCtrl := b, calcCrc := 0x0000, idx := 0, phase := .seq, tmr := s.cfg.tByte }
      else if b = 0x04 then { s with lastCtrl := b, txb := 0x06, txv := true, state := .done, result := .ok }
      else if b = 0x18 then { s with
        lastCtrl := b, state := .aborted, result := .senderCan, phase := .ctrl, idx := 0 }
      else if b = 0x1B then { s with
        lastCtrl := b, state := .aborted, result := .senderEsc, phase := .ctrl, idx := 0 }
      else match s.cfg.unknownCtrl with
        | .discard => { s with state := .receiving, lastCtrl := b, tmr := s.cfg.tByte }
        | .abort => { s with
            lastCtrl := b, state := .aborted, result := .unknownCtrl, phase := .ctrl, idx := 0 })) ∧
  (∀ s : State, BlockInv s → s.cfg.Admitted → s.awaiting →
    ∃ t, exec (.handshakeReply 0x04) s = .next t ∧ t.state = .done ∧ t.count = 0 ∧ t.result = .ok)

/-! ## Frame bytes and validation -/

/-- 41_packet_reader.md R134 and R135: the two sequence bytes are stored as received and not checked. -/
def Obligations.SequenceBytesAreStored : Prop :=
  ∀ (s : State) (b : Byte), s.cfg.Admitted →
    (s.receivingIn .seq →
      exec (.seq b) s = .next { s with rxSeq := b, phase := .seqc, tmr := s.cfg.tByte }) ∧
    (s.receivingIn .seqc →
      exec (.seqc b) s = .next { s with rxSeqc := b, idx := 0, phase := .data, tmr := s.cfg.tByte })

/-- 41_packet_reader.md R136: a payload byte goes to `PKT[IDX]` and into the CRC; the 128th moves to CRCH. -/
def Obligations.PayloadByteIsStagedAndFolded : Prop :=
  ∀ (s : State) (b : Byte), s.cfg.Admitted → s.receivingIn .data → s.idx.toNat ≤ 127 →
    ∃ p : Vector Byte 128,
      exec (.data b) s = .next { s with
        pkt := p, calcCrc := crc16Update s.calcCrc b, idx := s.idx + 1,
        phase := if s.idx.toNat = 127 then .crch else .data, tmr := s.cfg.tByte } ∧
      ∀ (j : Nat) (hj : j < 128), p[j] = if j = s.idx.toNat then b else s.pkt[j]

/-- 41_packet_reader.md R137: the high byte of the trailer; `RX_CRC[7:0]` keeps its value. -/
def Obligations.TrailerHighByteIsStored : Prop :=
  ∀ (s : State) (b : Byte), s.cfg.Admitted → s.receivingIn .crch →
    ∃ c : Crc16, exec (.crch b) s = .next { s with rxCrc := c, phase := .crcl, tmr := s.cfg.tByte } ∧
      c.extractLsb' 8 8 = b ∧ c.extractLsb' 0 8 = s.rxCrc.extractLsb' 0 8

/-- 41_packet_reader.md R138 with R140, R141 and R142: the low byte of the trailer, and the validation that follows in
the same step: the first check that fails names the cause of an abort that sends one CAN; a frame that passes enters
COMMIT where it fits, and is a fault where it does not. -/
def Obligations.TrailerLowByteValidatesTheFrame : Prop :=
  ∀ (s : State) (b : Byte), s.cfg.Admitted → s.receivingIn .crcl →
    let c : Crc16 := s.rxCrc.extractLsb' 8 8 ++ b
    let rejected : XferResult → State := fun cause => { s with
      rxCrc := c, txb := 0x18, txv := true, state := .aborted, result := cause, phase := .ctrl, idx := 0 }
    (c ≠ s.calcCrc → exec (.crcl b) s = .next (rejected .badCrc)) ∧
    (c = s.calcCrc → s.rxSeq ≠ s.expSeq → exec (.crcl b) s = .next (rejected .badSeq)) ∧
    (c = s.calcCrc → s.rxSeq = s.expSeq → s.rxSeqc ≠ ~~~s.rxSeq →
      exec (.crcl b) s = .next (rejected .badSeqc)) ∧
    (c = s.calcCrc → s.rxSeq = s.expSeq → s.rxSeqc = ~~~s.rxSeq → s.count.toNat + 128 ≤ s.bufLen.toNat →
      exec (.crcl b) s = .next { s with rxCrc := c, idx := 0, phase := .commit }) ∧
    (c = s.calcCrc → s.rxSeq = s.expSeq → s.rxSeqc = ~~~s.rxSeq → s.bufLen.toNat < s.count.toNat + 128 →
      exec (.crcl b) s = .fault .bufferOverrun)

/-- 41_packet_reader.md R140, the row VALIDATE, with R141 and R142. -/
def Obligations.ValidationChoosesTheCauseInOrder : Prop :=
  ∀ s : State, s.cfg.Admitted → s.receivingIn .crcl →
    let rejected : XferResult → State := fun cause => { s with
      txb := 0x18, txv := true, state := .aborted, result := cause, phase := .ctrl, idx := 0 }
    (s.rxCrc ≠ s.calcCrc → exec .validate s = .next (rejected .badCrc)) ∧
    (s.rxCrc = s.calcCrc → s.rxSeq ≠ s.expSeq → exec .validate s = .next (rejected .badSeq)) ∧
    (s.rxCrc = s.calcCrc → s.rxSeq = s.expSeq → s.rxSeqc ≠ ~~~s.rxSeq →
      exec .validate s = .next (rejected .badSeqc)) ∧
    (s.rxCrc = s.calcCrc → s.rxSeq = s.expSeq → s.rxSeqc = ~~~s.rxSeq →
      s.count.toNat + 128 ≤ s.bufLen.toNat → exec .validate s = .next { s with idx := 0, phase := .commit }) ∧
    (s.rxCrc = s.calcCrc → s.rxSeq = s.expSeq → s.rxSeqc = ~~~s.rxSeq →
      s.bufLen.toNat < s.count.toNat + 128 → exec .validate s = .fault .bufferOverrun)

/-- 41_packet_reader.md R141, the row REJECT: one CAN and the abort, for each cause; nothing is written to the
destination, and `COUNT` and `EXP_SEQ` keep their values. -/
def Obligations.RejectSendsOneCanAndAborts : Prop :=
  ∀ s : State, s.cfg.Admitted → s.receivingIn .crcl →
    let rejected : XferResult → State := fun cause => { s with
      txb := 0x18, txv := true, state := .aborted, result := cause, phase := .ctrl, idx := 0 }
    exec (.reject .badCrc) s = .next (rejected .badCrc) ∧
    exec (.reject .badSeq) s = .next (rejected .badSeq) ∧
    exec (.reject .badSeqc) s = .next (rejected .badSeqc)

/-- 41_packet_reader.md R142, the row ACCEPT: the sum is exact, and an overrun is a fault. -/
def Obligations.AcceptEntersCommitWhereTheFrameFits : Prop :=
  ∀ s : State, s.cfg.Admitted → s.receivingIn .crcl →
    (s.count.toNat + 128 ≤ s.bufLen.toNat → exec .accept s = .next { s with idx := 0, phase := .commit }) ∧
    (s.bufLen.toNat < s.count.toNat + 128 → exec .accept s = .fault .bufferOverrun)

/-! ## Commit -/

/-- 41_packet_reader.md R150 and R151, 20_memory.md R62: a CommitStep writes `PKT[IDX]` at `BUF_BASE + COUNT + IDX`
(`AW` bits), every other address reads as before, and the 128th ends the frame in the same step. -/
def Obligations.CommitStepWritesOneByte : Prop :=
  ∀ s : State, s.cfg.Admitted → s.state = .receiving → s.phase = .commit → (h : s.idx.toNat < 128) →
    ∃ m : Mem,
      (∀ a, Mem.read m a =
        if a = (s.bufBase.toNat + s.count.toNat + s.idx.toNat) % 2 ^ s.cfg.aw then some s.pkt[s.idx.toNat]
        else Mem.read s.mem a) ∧
      exec .commitStep s = .next (
        if s.idx.toNat = 127 then { s with
          mem := m, count := s.count + 128, expSeq := s.expSeq + 1, idx := 0, phase := .ctrl,
          txb := 0x06, txv := true }
        else { s with mem := m, idx := s.idx + 1 })

/-- 41_packet_reader.md R151, the row COMMIT_END. -/
def Obligations.CommitEndFinishesTheFrame : Prop :=
  ∀ s : State, s.cfg.Admitted → s.state = .receiving → s.phase = .commit → s.idx = 128 →
    exec .commitEnd s = .next { s with
      count := s.count + 128, expSeq := s.expSeq + 1, idx := 0, phase := .ctrl, txb := 0x06, txv := true }

/-- 41_packet_reader.md R150, R151, 20_memory.md R63, R65: left to itself with a frame to commit, the machine takes 128
steps, after which the 128 bytes at `BUF_BASE + COUNT` are the payload in order, every other address reads as before,
`COUNT` and `EXP_SEQ` have advanced and the ACK is offered. (That nothing is offered before the last of these steps is
`CommitPrefixIsWrittenInOrder`.) That the block moves by itself while the environment makes no move is the model's choice,
log 2. -/
def Obligations.CommitCopiesThePayload : Prop :=
  ∀ s : State, s.cfg.Admitted → s.state = .receiving → s.phase = .commit → s.idx = 0 → s.quiet →
    s.bufBase.toNat + s.count.toNat + 128 ≤ 2 ^ s.cfg.aw →
    ∃ m : Mem,
      run 128 s = .next { s with
        mem := m, count := s.count + 128, expSeq := s.expSeq + 1, idx := 0, phase := .ctrl,
        txb := 0x06, txv := true } ∧
      (∀ (k : Nat) (hk : k < 128), Mem.read m (s.bufBase.toNat + s.count.toNat + k) = some s.pkt[k]) ∧
      (∀ a, a < s.bufBase.toNat + s.count.toNat ∨ s.bufBase.toNat + s.count.toNat + 128 ≤ a →
        Mem.read m a = Mem.read s.mem a)

/-- 20_memory.md R65, 70_reset_and_hazards.md R271: after `k` CommitSteps of a frame, exactly the first `k` payload bytes
are written, in increasing address order, and no register but `IDX` has changed (log 2 as above). -/
def Obligations.CommitPrefixIsWrittenInOrder : Prop :=
  ∀ (s : State) (k : Nat), s.cfg.Admitted → s.state = .receiving → s.phase = .commit → s.idx = 0 → s.quiet →
    s.bufBase.toNat + s.count.toNat + 128 ≤ 2 ^ s.cfg.aw → k ≤ 127 →
    ∃ m : Mem,
      run k s = .next { s with mem := m, idx := BitVec.ofNat 8 k } ∧
      (∀ j, j < k → Mem.read m (s.bufBase.toNat + s.count.toNat + j) = s.pkt[j]?) ∧
      (∀ a, a < s.bufBase.toNat + s.count.toNat ∨ s.bufBase.toNat + s.count.toNat + k ≤ a →
        Mem.read m a = Mem.read s.mem a)

/-- 20_memory.md R61, R62: in every state that meets the invariant, the address a CommitStep writes is
`BUF_BASE + COUNT + IDX` without wrapping, and lies in the destination region. -/
def Obligations.CommitAddressLiesInTheRegion : Prop :=
  ∀ s : State, BlockInv s → s.position.committing = true →
    s.destAddress = s.bufBase.toNat + s.count.toNat + s.idx.toNat ∧ s.inRegion s.destAddress = true ∧
    s.destAddress < 2 ^ s.cfg.aw

/-! ## Transmit side, transport errors, the wait timer -/

/-- 42_transfer_fsm.md R183, the tx8 rows: `TXB` takes the byte and `TXV` is set. The positions at which a tx8 row runs
by itself are the model's choice (log 7). -/
def Obligations.EmittingRowsOfferTheirByte : Prop :=
  ∀ s : State, s.cfg.Admitted →
    (s.awaiting → exec .txC s = .next { s with txb := 0x43, txv := true }) ∧
    (s.receivingIn .ctrl → exec .txAckFrame s = .next { s with txb := 0x06, txv := true }) ∧
    (s.receivingIn .ctrl → exec .txAckEot s = .next { s with txb := 0x06, txv := true }) ∧
    (s.receivingIn .crcl → exec .txCan s = .next { s with txb := 0x18, txv := true })

/-- 42_transfer_fsm.md R183 and R185: the byte offered is appended to the transmit stream, `TXV` falls, and the wait
that follows loads the timer. -/
def Obligations.TxTakeDrainsTheOfferedByte : Prop :=
  ∀ s : State, s.cfg.Admitted → s.txv = true →
    exec .txTake s = .next { s with
      txStream := s.txStream ++ [s.txb], txv := false,
      tmr := if s.state = .awaitingStart then (if s.txb = 0x43 then s.cfg.tPoll else s.tmr)
        else if s.state = .receiving then s.cfg.tByte else s.tmr }

/-- 42_transfer_fsm.md R172: a poll timeout sends `'C'` again. That `TMR` is 0 after it, whatever it was before the event,
is the model's reading of 30_encoding.md R89 and 42_transfer_fsm.md R185 (log 3, DEDUCED); R172 writes no `TMR`. -/
def Obligations.PollTimeoutSendsC : Prop :=
  ∀ s : State, s.cfg.Admitted → s.awaiting →
    exec .pollTimeout s = .next { s with tmr := 0, txb := 0x43, txv := true }

/-- 42_transfer_fsm.md R179, R180 and R181: a timeout or an error aborts, and nothing is emitted. That `TMR` is 0 after
the timeout, whatever it was before the event, is the model's reading of 30_encoding.md R89 and 42_transfer_fsm.md R185
(log 3, DEDUCED); R180 and 60_exceptions.md R241 write no `TMR`. -/
def Obligations.TransportErrorsAbort : Prop :=
  ∀ s : State, s.cfg.Admitted →
    (s.reading → exec .rxTimeout s = .next { s with
      tmr := 0, state := .aborted, result := .rxTimeout, phase := .ctrl, idx := 0 }) ∧
    (s.reading → exec .rxError s = .next { s with
      state := .aborted, result := .rxError, phase := .ctrl, idx := 0 }) ∧
    (s.awaiting → exec .rxErrorAwait s = .next { s with
      state := .aborted, result := .rxError, phase := .ctrl, idx := 0 })

/-- 42_transfer_fsm.md R172, R178, R180, R185, 60_exceptions.md R260: while the environment stays silent `TMR` counts
down one a step; when it runs out, a wait in RECEIVING ends in the RX_TIMEOUT abort, and the handshake sends another
`'C'` and goes on, for ever where the transport takes each `'C'` and nobody answers (R178, R260). Host accesses without end
do not put the timeout off in RECEIVING: a step counts the timer or uses up the patience of the wait (R260). The silent step and its count are the model's form of a clock cycle (logs 2 and 3), a
`TMR` that `TW` bits do not hold is counted whole (log 33), and the form of the environment's moves is log 34. -/
def Obligations.SilenceRunsTheWaitTimerOut : Prop :=
  (∀ s : State, s.cfg.Admitted → s.quiet →
    (s.reading → run (max s.tmr 1) s = .next { s with
      tmr := 0, state := .aborted, result := .rxTimeout, phase := .ctrl, idx := 0 }) ∧
    (s.awaiting → run (max s.tmr 1) s = .next { s with
      tmr := 0, txb := 0x43, txv := true })) ∧
  (∀ (s : State) (k : Nat), s.cfg.Admitted → s.state = .awaitingStart → s.events = [] →
    (∀ e ∈ s.liberties, e = .txTake) →
    ∃ t, run k s = .next t ∧ t.state = .awaitingStart ∧ t.result = s.result ∧ t.count = s.count ∧ t.mem = s.mem) ∧
  (∀ s t : State, s.reading → s.events = [] → (∀ e ∈ s.liberties, isHostAccess e = true) → step s = .next t →
    (t.reading ∧ t.phase = s.phase ∧ t.idx = s.idx ∧
      ((t.tmr = s.tmr ∧ t.patience + 1 = s.patience) ∨ (t.tmr + 1 = s.tmr ∧ t.patience = s.patience))) ∨
    (s.tmr ≤ 1 ∧ t.state = .aborted ∧ t.result = .rxTimeout)) ∧
  (∀ s : State, s.cfg.Admitted → s.reading → s.events = [] → s.liberties ≠ [] →
    (∀ e ∈ s.liberties, ∃ off : Offset, e = .hostRead off .word ∧ off.toNat % 4 = 0) →
    ∃ w, run (s.patience + max s.tmr 1) s = .next { s with
      tmr := 0, state := .aborted, result := .rxTimeout, phase := .ctrl, idx := 0,
      rdata := w, draws := s.draws + s.patience, patience := 0 })

/-! ## Host interface -/

/-- 43_host_interface.md R212: START. Only `v[0]` is read; it is ignored while `BUSY = 1`; a region that wraps faults;
over ordinary memory it opens a fresh session and emits the first `'C'`. -/
def Obligations.StartOpensASession : Prop :=
  ∀ (s : State) (v : Word), s.cfg.Admitted →
    (v.getLsbD 0 = false → exec (.start v) s = .next s) ∧
    (s.busy = true → exec (.start v) s = .next s) ∧
    (v.getLsbD 0 = true → s.busy = false → 2 ^ s.cfg.aw < s.bufBase.toNat + s.bufLen.toNat →
      exec (.start v) s = .fault .regionWrap) ∧
    (v.getLsbD 0 = true → s.busy = false → s.bufBase.toNat + s.bufLen.toNat ≤ 2 ^ s.cfg.aw →
      s.regionHitsDevice = false →
      exec (.start v) s = .next { s with
        count := 0, expSeq := 0x01, result := .none, rxSeq := 0x00, rxSeqc := 0x00, lastCtrl := 0x00,
        calcCrc := 0x0000, rxCrc := 0x0000, idx := 0, phase := .ctrl, state := .awaitingStart,
        txb := 0x43, txv := true })

/-- 20_memory.md R64, log 17: a START over a region that meets a range of device registers is refused. That the refusal
stands at START, after the wrap check, is the model's choice (log 17). -/
def Obligations.DeviceRegionIsRefusedAtStart : Prop :=
  ∀ (s : State) (v : Word) (d : Region), s.cfg.Admitted → v.getLsbD 0 = true → s.busy = false →
    s.bufBase.toNat + s.bufLen.toNat ≤ 2 ^ s.cfg.aw → d ∈ s.cfg.devices →
    (∃ a, s.inRegion a = true ∧ d.base ≤ a ∧ a < d.base + d.size) →
    exec (.start v) s = .refused .deviceRegion

/-- 43_host_interface.md R214: the fields of `STATUS`, and its value after reset. -/
def Obligations.StatusReadShowsItsFields : Prop :=
  (∀ s : State, s.cfg.Admitted → ∃ w : Word, exec .statusRead s = .next { s with rdata := w } ∧
    w.extractLsb' 0 3 = s.state.code ∧ w.getLsbD 3 = s.txv ∧ w.extractLsb' 4 3 = s.phase.code ∧
    w.getLsbD 7 = s.busy ∧ w.extractLsb' 8 4 = s.result.code ∧ w.extractLsb' 12 4 = 0 ∧
    w.extractLsb' 16 8 = s.idx ∧ w.extractLsb' 24 8 = 0) ∧
  exec .statusRead State.reset = .next { State.reset with rdata := 0x00000000 }

/-- 43_host_interface.md R219 and R220: the fields of `SEQ` and `CRC`; a write has no effect. -/
def Obligations.SeqAndCrcReadsShowTheirFields : Prop :=
  (∀ s : State, s.cfg.Admitted → ∃ w : Word, exec (.seqRead .read) s = .next { s with rdata := w } ∧
    w.extractLsb' 0 8 = s.expSeq ∧ w.extractLsb' 8 8 = s.rxSeq ∧ w.extractLsb' 16 8 = s.rxSeqc ∧
    w.extractLsb' 24 8 = s.lastCtrl) ∧
  (∀ s : State, s.cfg.Admitted → ∃ w : Word, exec (.crcRead .read) s = .next { s with rdata := w } ∧
    w.extractLsb' 0 16 = s.calcCrc ∧ w.extractLsb' 16 16 = s.rxCrc) ∧
  (∀ (s : State) (v : Word), s.cfg.Admitted →
    exec (.seqRead (.write v)) s = .next s ∧ exec (.crcRead (.write v)) s = .next s) ∧
  exec (.seqRead .read) State.reset = .next { State.reset with rdata := 0x00000001 }

/-- 43_host_interface.md R213, R215, R218 and R221: the registers that read a word or zero, and ignore writes; of a write
to `CTRL` only bit 0 has an effect. -/
def Obligations.PlainRegistersReadAndIgnoreWrites : Prop :=
  ∀ (s : State) (v w : Word), s.cfg.Admitted →
    exec .ctrlRead s = .next { s with rdata := 0x00000000 } ∧
    (v.getLsbD 0 = w.getLsbD 0 → exec (.start v) s = exec (.start w) s) ∧
    exec (.statusWrite v) s = .next s ∧
    exec (.countRead .read) s = .next { s with rdata := s.count } ∧
    exec (.countRead (.write v)) s = .next s ∧
    exec (.reserved1c .read) s = .next { s with rdata := 0x00000000 } ∧
    exec (.reserved1c (.write v)) s = .next s

/-- 43_host_interface.md R216 and R217: the buffer registers are read at any time and written only while `BUSY = 0`;
`BUF_BASE` keeps `v[AW-1:0]`, `BUF_LEN` any value; `AW > 32` is refused. -/
def Obligations.BufferRegistersAreWrittenOnlyWhileNotBusy : Prop :=
  ∀ (s : State) (v : Word),
    (s.cfg.Admitted →
      exec (.bufBaseAccess .read) s = .next { s with rdata := s.bufBase } ∧
      exec (.bufLenAccess .read) s = .next { s with rdata := s.bufLen } ∧
      (s.busy = true → exec (.bufBaseAccess (.write v)) s = .next s ∧
        exec (.bufLenAccess (.write v)) s = .next s) ∧
      (s.busy = false →
        (∃ base : Word, base.toNat = v.toNat % 2 ^ s.cfg.aw ∧
          exec (.bufBaseAccess (.write v)) s = .next { s with bufBase := base }) ∧
        exec (.bufLenAccess (.write v)) s = .next { s with bufLen := v })) ∧
    (s.cfg.nakRetry = false → 32 < s.cfg.aw →
      exec (.bufBaseAccess .read) s = .refused .wideAddress ∧
      exec (.bufBaseAccess (.write v)) s = .refused .wideAddress)

/-- 43_host_interface.md R222: no host read has a side effect: a step that takes one changes the word returned and nothing
else; and every host access selects an operation that is in its context, at every position. -/
def Obligations.NoHostReadHasASideEffect : Prop :=
  (∀ (s : State) (off : Offset) (rest : List Event), s.cfg.Admitted → off.toNat % 4 = 0 →
    s.events = .hostRead off .word :: rest →
    ∃ w : Word, step s = .next { s with events := rest, rdata := w }) ∧
  (∀ (p : Position) (off : Offset) (v : Word), off.toNat % 4 = 0 →
    (∃ i, decode p (.hostRead off .word) = .ok i ∧ i.inContext p = true) ∧
    (∃ i, decode p (.hostWrite off .word v) = .ok i ∧ i.inContext p = true))

/-- 20_memory.md R66: what a host read of a byte of ordinary destination memory returns: the last value written there
where something has written one, some byte where nothing has, and a draw, whose value nothing fixes, where it races with a
commit. The access as an event, the field it returns to, the value of a byte that nothing has written, the form of the draw,
and that a read outside the region returns the last value written, while `BUSY = 1` too, are the model's choices (logs 10,
11, 12 and 32). -/
def Obligations.HostReadOfMemoryReturnsTheLastWrite : Prop :=
  ∀ (s : State) (addr : Word) (v : Byte) (rest : List Event), s.cfg.Admitted → s.events = .memRead addr :: rest →
    addr.toNat < 2 ^ s.cfg.aw → isDevice s.cfg addr.toNat = false →
    (Mem.read s.mem addr.toNat = some v →
      s.busy = false ∨ addr.toNat < s.bufBase.toNat + s.count.toNat ∨ s.inRegion addr.toNat = false →
      step s = .next { s with events := rest, memData := v }) ∧
    (Mem.read s.mem addr.toNat = none →
      s.busy = false ∨ addr.toNat < s.bufBase.toNat + s.count.toNat ∨ s.inRegion addr.toNat = false →
      ∃ d, step s = .next { s with events := rest, memData := d }) ∧
    (s.busy = true → s.inRegion addr.toNat = true → s.bufBase.toNat + s.count.toNat ≤ addr.toNat →
      ∃ d, step s = .next { s with events := rest, memData := d, draws := s.draws + 1 })

/-- 20_memory.md R67: a host write into the region while `BUSY = 1` is a fault; any other stores its byte, and every
other address reads as before. The access as an event (log 10), and that a write outside the region stores its byte, while
`BUSY = 1` too (log 30), are the model's choices. -/
def Obligations.HostWriteIntoABusyRegionFaults : Prop :=
  ∀ (s : State) (addr : Word) (v : Byte) (rest : List Event), s.cfg.Admitted → s.events = .memWrite addr v :: rest →
    addr.toNat < 2 ^ s.cfg.aw → isDevice s.cfg addr.toNat = false →
    (s.busy = true → s.inRegion addr.toNat = true → step s = .fault .hostBufferWrite) ∧
    (s.busy = false ∨ s.inRegion addr.toNat = false →
      ∃ m : Mem, step s = .next { s with events := rest, mem := m } ∧
        ∀ a, Mem.read m a = if a = addr.toNat then some v else Mem.read s.mem a)

/-- 60_exceptions.md R252, 43_host_interface.md R210, R216, 41_packet_reader.md R153: a host access that is no aligned
word is refused, and a parameter choice the model does not admit refuses every step and every operation (log 5). -/
def Obligations.WhatTheModelDoesNotAdmitIsRefused : Prop :=
  (∀ (s : State) (off : Offset) (size : AccessSize) (v : Word) (rest : List Event), s.cfg.Admitted →
    (size ≠ .word ∨ off.toNat % 4 ≠ 0) →
    (s.events = .hostWrite off size v :: rest ∨ s.events = .hostRead off size :: rest) →
    step s = .refused .subwordAccess) ∧
  (∀ (s : State) (i : Instr),
    (s.cfg.nakRetry = true → step s = .refused .nakRetry ∧ exec i s = .refused .nakRetry) ∧
    (s.cfg.nakRetry = false → 32 < s.cfg.aw →
      step s = .refused .wideAddress ∧ exec i s = .refused .wideAddress))

/-! ## The RESET command -/

/-- 70_reset_and_hazards.md R270 and R271, 10_state.md R42: RESET gives every register its value at reset, drops the
byte offered, leaves what waits in the transport and what has been sent, and writes no memory, but for the byte in
flight when it interrupts a commit, which lands or does not. (`PKT` and `TXB`, unspecified there, take the values of
logs 14 and 15.) -/
def Obligations.ResetCommandRestoresTheRegisters : Prop :=
  ∀ s : State, s.cfg.Admitted →
    ∃ (m : Mem) (n : Nat),
      exec .reset s = .next { State.reset with
        mem := m, txStream := s.txStream, events := s.events, liberties := s.liberties, patience := s.patience, rdata := s.rdata, memData := s.memData,
        crcOut := s.crcOut, draws := n, cfg := s.cfg } ∧
      (s.position.committing = false → m = s.mem ∧ n = s.draws) ∧
      (s.position.committing = true →
        (∀ a, a ≠ s.destAddress → Mem.read m a = Mem.read s.mem a) ∧
        (Mem.read m s.destAddress = Mem.read s.mem s.destAddress ∨
          Mem.read m s.destAddress = some s.stagedByte))

/-! ## The CRC engine -/

/-- 40_crc_engine.md R110: CRC_UPDATE, against the rule's pseudocode written over natural numbers: the byte enters at
bits 15:8, then eight times a left shift of 16 bits with the polynomial folded in where the top bit was set. No
register is written; where the result goes is the model's choice (log 8). -/
def Obligations.CrcUpdateFollowsThePseudocode : Prop :=
  ∀ (s : State) (acc : Crc16) (b : Byte), s.cfg.Admitted →
    ∃ r : Crc16, exec (.crcUpdate acc b) s = .next { s with crcOut := r } ∧
      r.toNat = (fun a : Nat => if a.testBit 15 then ((a <<< 1) &&& 0xFFFF) ^^^ 0x1021 else (a <<< 1) &&& 0xFFFF)^[8]
        (acc.toNat ^^^ (b.toNat <<< 8))

/-- 40_crc_engine.md R111: the CRC of a sequence is the left fold, from any start value; the empty sequence changes
nothing. -/
def Obligations.CrcOfASequenceIsTheLeftFold : Prop :=
  ∀ (acc : Crc16) (b : Byte) (xs ys : List Byte),
    crc16 acc [] = acc ∧ crc16 acc (b :: xs) = crc16 (crc16Update acc b) xs ∧
    crc16 acc (xs ++ ys) = crc16 (crc16 acc xs) ys

/-- 40_crc_engine.md R112: the CRC of "123456789" is 0x31C3, and a sequence followed by its own big-endian CRC has CRC
zero. -/
def Obligations.CrcResidueIsZero : Prop :=
  crc16 0x0000 [0x31, 0x32, 0x33, 0x34, 0x35, 0x36, 0x37, 0x38, 0x39] = 0x31C3 ∧
  ∀ d : List Byte,
    crc16 0x0000 (d ++ [(crc16 0x0000 d).extractLsb' 8 8, (crc16 0x0000 d).extractLsb' 0 8]) = 0x0000

/-- 40_crc_engine.md R110 (derived): the update is linear over exclusive or, so its result depends only on
`acc ^ (b << 8)`. -/
def Obligations.CrcUpdateIsLinear : Prop :=
  ∀ (a c : Crc16) (b d : Byte),
    crc16Update (a ^^^ c) (b ^^^ d) = crc16Update a b ^^^ crc16Update c d ∧
    crc16Update a b = crc16Update (a ^^^ (b.setWidth 16 <<< 8)) 0x00

/-- 40_crc_engine.md R110, R111 (derived): a payload in which exactly one byte has changed has another CRC, so no such
frame passes the check of 41_packet_reader.md R140. -/
def Obligations.CrcDetectsOneChangedByte : Prop :=
  ∀ (acc : Crc16) (xs ys : List Byte) (b c : Byte), b ≠ c →
    crc16 acc (xs ++ b :: ys) ≠ crc16 acc (xs ++ c :: ys)

/-! ## Rules about the whole machine -/

/-- 20_memory.md R60, R62, R67, 70_reset_and_hazards.md R270: destination memory is written only by a CommitStep (or the
write of one in flight at `Reset`) at its address, and by a host write, which is never into the region of a running
transfer. That a host write elsewhere stores its byte is the model's choice (log 30). -/
def Obligations.OnlyCommitsAndTheHostWriteMemory : Prop :=
  ∀ (s t : State) (a : Nat), step s = .next t → Mem.read t.mem a ≠ Mem.read s.mem a →
    (s.position.committing = true ∧ a = s.destAddress) ∨
    (∃ addr v, .memWrite addr v ∈ s.moves ∧ a = addr.toNat ∧ (s.busy && s.inRegion a) = false)

/-- 10_state.md R29: START and reset set `COUNT` to zero, an accepted frame adds 128, and nothing else writes it. -/
def Obligations.OnlyFramesAdvanceCount : Prop :=
  ∀ (i : Instr) (s t : State), exec i s = .next t →
    t.count = s.count ∨ ((∃ v, i = .start v) ∧ t.count = 0) ∨ (i = .reset ∧ t.count = 0) ∨
    ((i = .commitStep ∨ i = .commitEnd) ∧ t.count = s.count + 128 ∧ t.expSeq = s.expSeq + 1)

/-- 40_crc_engine.md R114: `CALC_CRC` is written by SOH (also as the byte that ends the handshake), by a payload byte,
by START and by reset alone. -/
def Obligations.OnlySohDataStartAndResetWriteCalcCrc : Prop :=
  ∀ (i : Instr) (s t : State), exec i s = .next t →
    t.calcCrc = s.calcCrc ∨ ((i = .soh ∨ i = .handshakeReply 0x01 ∨ i = .reset ∨ ∃ v, i = .start v) ∧ t.calcCrc = 0) ∨
    (∃ b, i = .data b ∧ t.calcCrc = crc16Update s.calcCrc b)

/-- 10_state.md R27, R28: only a host write (and reset) changes `BUF_BASE` and `BUF_LEN`, and only while `BUSY = 0`. -/
def Obligations.OnlyTheHostChangesTheBuffer : Prop :=
  ∀ (i : Instr) (s t : State), exec i s = .next t → i ≠ .reset →
    (t.bufBase = s.bufBase ∨ (s.busy = false ∧ ∃ v, i = .bufBaseAccess (.write v))) ∧
    (t.bufLen = s.bufLen ∨ (s.busy = false ∧ ∃ v, i = .bufLenAccess (.write v)))

/-- 00_scope.md R7 to R9: no step changes a parameter. -/
def Obligations.NoStepChangesTheParameters : Prop :=
  ∀ s t : State, step s = .next t → t.cfg = s.cfg

/-- 10_state.md R43 (point 5), 41_packet_reader.md R153: in every state that meets the invariant a step sends at most one
byte, and it is `'C'`, ACK or CAN: never NAK. -/
def Obligations.OnlyCAckAndCanAreSent : Prop :=
  ∀ s t : State, BlockInv s → step s = .next t →
    t.txStream = s.txStream ∨ ∃ b, (b = 0x43 ∨ b = 0x06 ∨ b = 0x18) ∧ t.txStream = s.txStream ++ [b]

/-- 42_transfer_fsm.md R182: a transfer that has ended is left only by a START with `TXV = 0`, or by `Reset`; until then
its result, its count and the destination registers stay. -/
def Obligations.EndedTransfersAreLeftOnlyByStartOrReset : Prop :=
  ∀ s t : State, s.state = .done ∨ s.state = .aborted → step s = .next t →
    (t.state = s.state ∧ t.result = s.result ∧ t.count = s.count ∧ t.expSeq = s.expSeq ∧ t.lastCtrl = s.lastCtrl) ∨
    (t.state = .awaitingStart ∧ s.txv = false ∧ ∃ v, v.getLsbD 0 = true ∧ .hostWrite 0x00 .word v ∈ s.moves) ∨
    (t.state = .idle ∧ .reset ∈ s.moves)

/-- 60_exceptions.md R240 to R242: an operation that ends in ABORTED records a cause, returns to `PHASE = CTRL` with
`IDX = 0`, and keeps the rest of the state, `PKT`, the transmit stream and all of memory among it, but for what its own
event writes: the low byte of `RX_CRC` (41_packet_reader.md R138), the control byte (42_transfer_fsm.md R171), the expired
`TMR` (log 3), and the CAN that it emits where a check failed and nowhere else (41_packet_reader.md R141). -/
def Obligations.AnAbortKeepsItsEvidence : Prop :=
  ∀ (i : Instr) (s t : State), exec i s = .next t → s.state ≠ .aborted → t.state = .aborted →
    (t.result ≠ .none ∧ t.result ≠ .ok) ∧
    t = { s with
      state := .aborted, result := t.result, phase := .ctrl, idx := 0,
      rxCrc := t.rxCrc, lastCtrl := t.lastCtrl, tmr := t.tmr, txv := t.txv, txb := t.txb } ∧
    (t.rxCrc = s.rxCrc ∨ ∃ b, i = .crcl b ∧ t.rxCrc = s.rxCrc.extractLsb' 8 8 ++ b) ∧
    (t.lastCtrl = s.lastCtrl ∨
      (encode i = some (.rxByte t.lastCtrl) ∧
        (t.result = .senderCan ∨ t.result = .senderEsc ∨ t.result = .unknownCtrl))) ∧
    (t.tmr = s.tmr ∨ (i = .rxTimeout ∧ t.tmr = 0)) ∧
    ((t.txv = s.txv ∧ t.txb = s.txb) ∨
      (t.txv = true ∧ t.txb = 0x18 ∧ (t.result = .badCrc ∨ t.result = .badSeq ∨ t.result = .badSeqc)))

/-- 41_packet_reader.md R140, R152: a step that begins a commit has a frame whose trailer is the computed CRC, whose
sequence byte is the expected one and whose second byte is its complement. -/
def Obligations.OnlyTheExpectedFrameIsCommitted : Prop :=
  ∀ s t : State, step s = .next t → s.phase ≠ .commit → t.phase = .commit →
    t.rxCrc = t.calcCrc ∧ t.rxSeq = t.expSeq ∧ t.rxSeqc = ~~~t.rxSeq ∧ t.count.toNat + 128 ≤ t.bufLen.toNat

/-- 10_state.md R42: no rule reads `TXB` while `TXV = 0`: another value there changes nothing but that value itself. -/
def Obligations.TxbIsNotReadWhileNothingIsOffered : Prop :=
  ∀ (i : Instr) (s t : State) (b : Byte), s.txv = false → exec i s = .next t →
    ∃ u, exec i { s with txb := b } = .next u ∧ (u = t ∨ u = { t with txb := b })

/-- 10_state.md R35, R41: the staging buffer cannot be read by the host, and reaches the destination only through a
commit: two states that differ in it alone look the same to the host after any operation, and hold the same memory
where no commit is in progress. -/
def Obligations.TheStagingBufferIsHidden : Prop :=
  ∀ (i : Instr) (s t : State) (p : Vector Byte 128), exec i s = .next t →
    ∃ u, exec i { s with pkt := p } = .next u ∧ u.rdata = t.rdata ∧ u.statusWord = t.statusWord ∧
      u.seqWord = t.seqWord ∧ u.crcWord = t.crcWord ∧ u.count = t.count ∧ u.txStream = t.txStream ∧
      (s.position.committing = false → u.mem = t.mem)

/-- 60_exceptions.md R246, 30_encoding.md R88: the events of one clock cycle: `rst` overrides every other input, a host access
among them; an error with a byte is one error; a byte taken wins over the timer, which runs only in a cycle in which the
block takes nothing; an offered byte is taken with `tx_ready`, and a commit write is performed with `mem_ack`. A host access
of the same cycle comes first, as it sees the registers from before the cycle (log 24). (That `TXV = 1` and a commit exclude
each other is a clause of `BlockInv`.) -/
def Obligations.OneCycleIsOneBlockEvent : Prop :=
  ∀ (p : Pins) (s : State),
    (p.rst = true → cycleEvents p s = [.reset]) ∧
    (p.rst = false →
      let host : List Event :=
        if p.regSel = false then []
        else if p.regWe then [.hostWrite (p.regAddr ++ 0#2) .word p.regWdata]
        else [.hostRead (p.regAddr ++ 0#2) .word]
      (s.awaiting ∨ s.reading → p.crcIdle = true → p.rxValid = true → p.rxErr = true →
        cycleEvents p s = host ++ [.rxErr]) ∧
      (s.awaiting ∨ s.reading → p.crcIdle = true → p.rxValid = true → p.rxErr = false →
        cycleEvents p s = host ++ [.rxByte p.rxData]) ∧
      (s.awaiting ∨ s.reading → p.crcIdle = false ∨ p.rxValid = false → cycleEvents p s = host ++ [.idle]) ∧
      (s.txv = true → s.position.committing = false →
        cycleEvents p s = host ++ [if p.txReady then .txTake else .idle]) ∧
      (s.txv = false → s.position.committing = true →
        cycleEvents p s = host ++ [if p.memAck then .commitStep else .idle]) ∧
      (s.txv = false → s.position.waiting = false → s.position.committing = false →
        cycleEvents p s = host ++ [.idle]))
end

