-- ==== Sys2Proof/Laws/Decode.lean ====
section
/-! SUPPORT. What the decoder can answer: an operation it gives is well-formed, in its context, and encoded by the event
it was given. -/

namespace Sys2Proof

/-- The fixed bytes of the ctrl8 rows lead to their rows, and every other byte to OTHER_CTRL. -/
theorem decodeCtrl_cases (b : Byte) :
    (decodeCtrl b = .soh ∧ b = 0x01) ∨ (decodeCtrl b = .eot ∧ b = 0x04) ∨ (decodeCtrl b = .canRx ∧ b = 0x18) ∨
    (decodeCtrl b = .escRx ∧ b = 0x1B) ∨ (decodeCtrl b = .nakRx ∧ b = 0x15) ∨ (decodeCtrl b = .ackRx ∧ b = 0x06) ∨
    (decodeCtrl b = .stxRx ∧ b = 0x02) ∨ (decodeCtrl b = .cRx ∧ b = 0x43) ∨
    (decodeCtrl b = .otherCtrl b ∧ (Instr.otherCtrl b).wf = true) := by
  revert b
  decide

theorem encode_decodeCtrl (b : Byte) : encode (decodeCtrl b) = some (.rxByte b) := by
  revert b
  decide

theorem wf_decodeCtrl (b : Byte) : (decodeCtrl b).wf = true := by
  revert b
  decide

/-- A well-formed OTHER_CTRL has none of the four bytes that R81 matches first. -/
theorem otherCtrl_wf {b : Byte} (h : (Instr.otherCtrl b).wf = true) :
    b ≠ byteSOH ∧ b ≠ byteEOT ∧ b ≠ byteCAN ∧ b ≠ byteESC := by
  revert b
  decide

/-- A control byte's row: its encoding, its well-formedness, and its context. -/
theorem decodeCtrl_sound (b : Byte) {p : Position} (ht : p.txv = false) (hs : p.state = .receiving)
    (hp : p.phase = .ctrl) :
    encode (decodeCtrl b) = some (.rxByte b) ∧ (decodeCtrl b).wf = true ∧ (decodeCtrl b).inContext p = true := by
  refine ⟨encode_decodeCtrl b, wf_decodeCtrl b, ?_⟩
  rcases decodeCtrl_cases b with h | h | h | h | h | h | h | h | ⟨h, hwf⟩
  all_goals try (rw [h.1]; simp [Instr.inContext, ht, hs, hp])
  have hb := otherCtrl_wf hwf
  rw [h]
  simp [Instr.inContext, ht, hs, hp, hb]

/-- A register offset that is an aligned word is one of eight. -/
theorem alignedWord_cases {off : Offset} {size : AccessSize} (h : alignedWord off size = true) :
    size = .word ∧ (off = 0x00 ∨ off = 0x04 ∨ off = 0x08 ∨ off = 0x0C ∨ off = 0x10 ∨ off = 0x14 ∨ off = 0x18 ∨
      off = 0x1C) := by
  cases size
  · simp [alignedWord] at h
  · simp [alignedWord] at h
  · refine ⟨rfl, ?_⟩
    revert off
    decide

/-- Whatever the decoder answers is a well-formed operation, in its context at that position, and encoded by that event
(30_encoding.md R91). -/
theorem decode_sound {p : Position} {e : Event} {i : Instr} (h : decode p e = .ok i) :
    encode i = some e ∧ i.wf = true ∧ i.inContext p = true := by
  cases e with
  | rxByte b =>
    simp only [decode] at h
    split at h
    · rename_i hw
      simp only [Position.waiting, Bool.and_eq_true, Bool.not_eq_true', Bool.or_eq_true, beq_iff_eq] at hw
      obtain ⟨ht, hst⟩ := hw
      unfold decodeByte at h
      split at h
      · rename_i ha
        cases h
        exact ⟨rfl, rfl, by simp [Instr.inContext, ht, ha]⟩
      · rename_i ha
        have hr : p.state = .receiving := by
          rcases hst with h' | h'
          · exact absurd h' ha
          · exact h'.1
        split at h
        · rename_i hp
          cases h
          exact decodeCtrl_sound b ht hr hp
        · rename_i hp
          cases h
          exact ⟨rfl, rfl, by simp [Instr.inContext, ht, hr, hp]⟩
        · rename_i hp
          cases h
          exact ⟨rfl, rfl, by simp [Instr.inContext, ht, hr, hp]⟩
        · rename_i hp
          split at h
          · rename_i hi
            cases h
            exact ⟨rfl, rfl, by simp [Instr.inContext, ht, hr, hp, hi]⟩
          · cases h
        · rename_i hp
          cases h
          exact ⟨rfl, rfl, by simp [Instr.inContext, ht, hr, hp]⟩
        · rename_i hp
          cases h
          exact ⟨rfl, rfl, by simp [Instr.inContext, ht, hr, hp]⟩
        · cases h
    · cases h
  | rxErr =>
    simp only [decode] at h
    split at h
    · rename_i hw
      simp only [Position.waiting, Bool.and_eq_true, Bool.not_eq_true', Bool.or_eq_true, beq_iff_eq] at hw
      cases h
      split
      · exact ⟨rfl, rfl, by simp [Instr.inContext, hw.1, *]⟩
      · exact ⟨rfl, rfl, by simp_all [Instr.inContext]⟩
    · cases h
  | timeout =>
    simp only [decode] at h
    split at h
    · rename_i hw
      simp only [Position.waiting, Bool.and_eq_true, Bool.not_eq_true', Bool.or_eq_true, beq_iff_eq] at hw
      cases h
      split
      · exact ⟨rfl, rfl, by simp [Instr.inContext, hw.1, *]⟩
      · exact ⟨rfl, rfl, by simp_all [Instr.inContext]⟩
    · cases h
  | txTake =>
    simp only [decode] at h
    split at h
    · cases h
      exact ⟨rfl, rfl, by simpa [Instr.inContext]⟩
    · cases h
  | commitStep =>
    simp only [decode] at h
    split at h
    · cases h
      exact ⟨rfl, rfl, by simpa [Instr.inContext]⟩
    · cases h
  | hostWrite off size v =>
    simp only [decode] at h
    split at h
    · rename_i ha
      cases h
      obtain ⟨rfl, ho⟩ := alignedWord_cases ha
      rcases ho with rfl | rfl | rfl | rfl | rfl | rfl | rfl | rfl <;> exact ⟨rfl, rfl, rfl⟩
    · cases h
  | hostRead off size =>
    simp only [decode] at h
    split at h
    · rename_i ha
      cases h
      obtain ⟨rfl, ho⟩ := alignedWord_cases ha
      rcases ho with rfl | rfl | rfl | rfl | rfl | rfl | rfl | rfl <;> exact ⟨rfl, rfl, rfl⟩
    · cases h
  | reset =>
    cases h
    exact ⟨rfl, rfl, rfl⟩
  | memRead addr => cases h
  | memWrite addr v => cases h
  | idle => cases h

/-- A byte read in `PHASE = CTRL` that is none of SOH, EOT, CAN and ESC decodes to the last row of R81, or to one of the
rows that spec/opcode_table.json has for it under a name of its own (log 20). -/
theorem decodeCtrl_unrecognised {b : Byte} (h1 : b ≠ byteSOH) (h2 : b ≠ byteEOT) (h3 : b ≠ byteCAN) (h4 : b ≠ byteESC) :
    decodeCtrl b = .otherCtrl b ∨ (decodeCtrl b = .nakRx ∧ b = byteNAK) ∨ (decodeCtrl b = .ackRx ∧ b = byteACK) ∨
    (decodeCtrl b = .stxRx ∧ b = byteSTX) ∨ (decodeCtrl b = .cRx ∧ b = byteC) := by
  unfold decodeCtrl
  rw [if_neg h1, if_neg h2, if_neg h3, if_neg h4]
  split
  · simp [*]
  split
  · simp [*]
  split
  · simp [*]
  split <;> simp [*]

end Sys2Proof
end

