-- ==== Sys2Proof/Laws/Memory.lean ====
section
/-! SUPPORT. The laws of destination memory: a write is read back at its own address and nowhere else, and the canonical
form is kept. -/

namespace Sys2Proof.Machine

theorem Mem.read_write_same (m : Mem) (a : Nat) (v : Byte) : Mem.read (Mem.write m a v) a = some v := by
  induction m with
  | nil => simp [Mem.write, Mem.read]
  | cons c m ih =>
    obtain ⟨b, w⟩ := c
    unfold Mem.write
    split
    · simp [Mem.read]
    · split
      · simp [Mem.read]
      · rename_i _ hne
        simp [Mem.read, hne, ih]

theorem Mem.read_write_other {m : Mem} {a x : Nat} {v : Byte} (h : x ≠ a) :
    Mem.read (Mem.write m a v) x = Mem.read m x := by
  induction m with
  | nil => simp [Mem.write, Mem.read, h]
  | cons c m ih =>
    obtain ⟨b, w⟩ := c
    unfold Mem.write
    split
    · simp [Mem.read, h]
    · split
      · rename_i _ heq
        subst heq
        simp [Mem.read, h]
      · simp [Mem.read, ih]

/-- A read after a write, at every address. -/
theorem Mem.read_write (m : Mem) (a x : Nat) (v : Byte) :
    Mem.read (Mem.write m a v) x = if x = a then some v else Mem.read m x := by
  split
  · rename_i h
    rw [h, Mem.read_write_same]
  · rename_i h
    rw [Mem.read_write_other h]

/-- The addresses after a write: those before it, and the address written. -/
theorem Mem.mem_keys_write {m : Mem} {a x : Nat} {v : Byte} (h : x ∈ (Mem.write m a v).map Prod.fst) :
    x = a ∨ x ∈ m.map Prod.fst := by
  induction m with
  | nil => simpa [Mem.write] using h
  | cons c m ih =>
    obtain ⟨b, w⟩ := c
    unfold Mem.write at h
    split at h
    · simpa using h
    · split at h
      · rename_i _ heq
        subst heq
        simp only [List.map_cons, List.mem_cons] at h ⊢
        tauto
      · simp only [List.map_cons, List.mem_cons] at h ⊢
        rcases h with h | h
        · exact .inr (.inl h)
        · rcases ih h with h | h
          · exact .inl h
          · exact .inr (.inr h)

/-- A write keeps the canonical form. -/
theorem Mem.write_wf {m : Mem} (a : Nat) (v : Byte) (h : Mem.wf m) : Mem.wf (Mem.write m a v) := by
  induction m with
  | nil => simp [Mem.wf, Mem.write]
  | cons c m ih =>
    obtain ⟨b, w⟩ := c
    rw [Mem.wf, List.map_cons, List.pairwise_cons] at h
    obtain ⟨hb, hm⟩ := h
    unfold Mem.write
    split
    · rename_i hlt
      simp only [Mem.wf, List.map_cons, List.pairwise_cons, List.mem_cons]
      refine ⟨?_, hb, hm⟩
      rintro x (rfl | hx)
      · exact hlt
      · exact hlt.trans (hb x hx)
    · rename_i hge
      split
      · rename_i heq
        subst heq
        exact List.pairwise_cons.mpr ⟨hb, hm⟩
      · rename_i hne
        refine List.pairwise_cons.mpr ⟨fun x hx => ?_, ih hm⟩
        rcases Mem.mem_keys_write hx with rfl | hx
        · omega
        · exact hb x hx

/-- Reset memory is canonical. -/
theorem State.reset_mem_wf : Mem.wf State.reset.mem := by simp [Mem.wf, State.reset]

/-- Writing the byte an address already holds changes nothing (20_memory.md R64). -/
theorem Mem.write_twice {m : Mem} {a : Nat} {v : Byte} :
    Mem.write (Mem.write m a v) a v = Mem.write m a v := by
  induction m with
  | nil => simp [Mem.write]
  | cons c m ih =>
    obtain ⟨b, w⟩ := c
    by_cases h : a < b
    · simp [Mem.write, h]
    · by_cases h' : a = b
      · simp [Mem.write, h']
      · simp [Mem.write, h, h', ih]

end Sys2Proof.Machine
end

