-- ==== Sys2Proof/Laws/State.lean ====
section
/-! SUPPORT. What each update of the state writes and what it leaves: one lemma per field per update, true by rfl. -/

namespace Sys2Proof.Machine

/-! ## emit -/

@[simp] theorem emit_state (b : Byte) (s : State) : (emit b s).state = s.state := rfl
@[simp] theorem emit_phase (b : Byte) (s : State) : (emit b s).phase = s.phase := rfl
@[simp] theorem emit_idx (b : Byte) (s : State) : (emit b s).idx = s.idx := rfl
@[simp] theorem emit_result (b : Byte) (s : State) : (emit b s).result = s.result := rfl
@[simp] theorem emit_bufBase (b : Byte) (s : State) : (emit b s).bufBase = s.bufBase := rfl
@[simp] theorem emit_bufLen (b : Byte) (s : State) : (emit b s).bufLen = s.bufLen := rfl
@[simp] theorem emit_count (b : Byte) (s : State) : (emit b s).count = s.count := rfl
@[simp] theorem emit_expSeq (b : Byte) (s : State) : (emit b s).expSeq = s.expSeq := rfl
@[simp] theorem emit_rxSeq (b : Byte) (s : State) : (emit b s).rxSeq = s.rxSeq := rfl
@[simp] theorem emit_rxSeqc (b : Byte) (s : State) : (emit b s).rxSeqc = s.rxSeqc := rfl
@[simp] theorem emit_lastCtrl (b : Byte) (s : State) : (emit b s).lastCtrl = s.lastCtrl := rfl
@[simp] theorem emit_calcCrc (b : Byte) (s : State) : (emit b s).calcCrc = s.calcCrc := rfl
@[simp] theorem emit_rxCrc (b : Byte) (s : State) : (emit b s).rxCrc = s.rxCrc := rfl
@[simp] theorem emit_pkt (b : Byte) (s : State) : (emit b s).pkt = s.pkt := rfl
@[simp] theorem emit_txv (b : Byte) (s : State) : (emit b s).txv = true := rfl
@[simp] theorem emit_txb (b : Byte) (s : State) : (emit b s).txb = b := rfl
@[simp] theorem emit_tmr (b : Byte) (s : State) : (emit b s).tmr = s.tmr := rfl
@[simp] theorem emit_mem (b : Byte) (s : State) : (emit b s).mem = s.mem := rfl
@[simp] theorem emit_txStream (b : Byte) (s : State) : (emit b s).txStream = s.txStream := rfl
@[simp] theorem emit_events (b : Byte) (s : State) : (emit b s).events = s.events := rfl
@[simp] theorem emit_liberties (b : Byte) (s : State) : (emit b s).liberties = s.liberties := rfl
@[simp] theorem emit_patience (b : Byte) (s : State) : (emit b s).patience = s.patience := rfl
@[simp] theorem emit_rdata (b : Byte) (s : State) : (emit b s).rdata = s.rdata := rfl
@[simp] theorem emit_memData (b : Byte) (s : State) : (emit b s).memData = s.memData := rfl
@[simp] theorem emit_crcOut (b : Byte) (s : State) : (emit b s).crcOut = s.crcOut := rfl
@[simp] theorem emit_draws (b : Byte) (s : State) : (emit b s).draws = s.draws := rfl
@[simp] theorem emit_cfg (b : Byte) (s : State) : (emit b s).cfg = s.cfg := rfl

/-! ## restartWait -/

@[simp] theorem restartWait_state (s : State) : (restartWait s).state = s.state := rfl
@[simp] theorem restartWait_phase (s : State) : (restartWait s).phase = s.phase := rfl
@[simp] theorem restartWait_idx (s : State) : (restartWait s).idx = s.idx := rfl
@[simp] theorem restartWait_result (s : State) : (restartWait s).result = s.result := rfl
@[simp] theorem restartWait_bufBase (s : State) : (restartWait s).bufBase = s.bufBase := rfl
@[simp] theorem restartWait_bufLen (s : State) : (restartWait s).bufLen = s.bufLen := rfl
@[simp] theorem restartWait_count (s : State) : (restartWait s).count = s.count := rfl
@[simp] theorem restartWait_expSeq (s : State) : (restartWait s).expSeq = s.expSeq := rfl
@[simp] theorem restartWait_rxSeq (s : State) : (restartWait s).rxSeq = s.rxSeq := rfl
@[simp] theorem restartWait_rxSeqc (s : State) : (restartWait s).rxSeqc = s.rxSeqc := rfl
@[simp] theorem restartWait_lastCtrl (s : State) : (restartWait s).lastCtrl = s.lastCtrl := rfl
@[simp] theorem restartWait_calcCrc (s : State) : (restartWait s).calcCrc = s.calcCrc := rfl
@[simp] theorem restartWait_rxCrc (s : State) : (restartWait s).rxCrc = s.rxCrc := rfl
@[simp] theorem restartWait_pkt (s : State) : (restartWait s).pkt = s.pkt := rfl
@[simp] theorem restartWait_txv (s : State) : (restartWait s).txv = s.txv := rfl
@[simp] theorem restartWait_txb (s : State) : (restartWait s).txb = s.txb := rfl
@[simp] theorem restartWait_tmr (s : State) : (restartWait s).tmr = s.cfg.tByte := rfl
@[simp] theorem restartWait_mem (s : State) : (restartWait s).mem = s.mem := rfl
@[simp] theorem restartWait_txStream (s : State) : (restartWait s).txStream = s.txStream := rfl
@[simp] theorem restartWait_events (s : State) : (restartWait s).events = s.events := rfl
@[simp] theorem restartWait_liberties (s : State) : (restartWait s).liberties = s.liberties := rfl
@[simp] theorem restartWait_patience (s : State) : (restartWait s).patience = s.patience := rfl
@[simp] theorem restartWait_rdata (s : State) : (restartWait s).rdata = s.rdata := rfl
@[simp] theorem restartWait_memData (s : State) : (restartWait s).memData = s.memData := rfl
@[simp] theorem restartWait_crcOut (s : State) : (restartWait s).crcOut = s.crcOut := rfl
@[simp] theorem restartWait_draws (s : State) : (restartWait s).draws = s.draws := rfl
@[simp] theorem restartWait_cfg (s : State) : (restartWait s).cfg = s.cfg := rfl

/-! ## timerExpired -/

@[simp] theorem timerExpired_state (s : State) : (timerExpired s).state = s.state := rfl
@[simp] theorem timerExpired_phase (s : State) : (timerExpired s).phase = s.phase := rfl
@[simp] theorem timerExpired_idx (s : State) : (timerExpired s).idx = s.idx := rfl
@[simp] theorem timerExpired_result (s : State) : (timerExpired s).result = s.result := rfl
@[simp] theorem timerExpired_bufBase (s : State) : (timerExpired s).bufBase = s.bufBase := rfl
@[simp] theorem timerExpired_bufLen (s : State) : (timerExpired s).bufLen = s.bufLen := rfl
@[simp] theorem timerExpired_count (s : State) : (timerExpired s).count = s.count := rfl
@[simp] theorem timerExpired_expSeq (s : State) : (timerExpired s).expSeq = s.expSeq := rfl
@[simp] theorem timerExpired_rxSeq (s : State) : (timerExpired s).rxSeq = s.rxSeq := rfl
@[simp] theorem timerExpired_rxSeqc (s : State) : (timerExpired s).rxSeqc = s.rxSeqc := rfl
@[simp] theorem timerExpired_lastCtrl (s : State) : (timerExpired s).lastCtrl = s.lastCtrl := rfl
@[simp] theorem timerExpired_calcCrc (s : State) : (timerExpired s).calcCrc = s.calcCrc := rfl
@[simp] theorem timerExpired_rxCrc (s : State) : (timerExpired s).rxCrc = s.rxCrc := rfl
@[simp] theorem timerExpired_pkt (s : State) : (timerExpired s).pkt = s.pkt := rfl
@[simp] theorem timerExpired_txv (s : State) : (timerExpired s).txv = s.txv := rfl
@[simp] theorem timerExpired_txb (s : State) : (timerExpired s).txb = s.txb := rfl
@[simp] theorem timerExpired_tmr (s : State) : (timerExpired s).tmr = 0 := rfl
@[simp] theorem timerExpired_mem (s : State) : (timerExpired s).mem = s.mem := rfl
@[simp] theorem timerExpired_txStream (s : State) : (timerExpired s).txStream = s.txStream := rfl
@[simp] theorem timerExpired_events (s : State) : (timerExpired s).events = s.events := rfl
@[simp] theorem timerExpired_liberties (s : State) : (timerExpired s).liberties = s.liberties := rfl
@[simp] theorem timerExpired_patience (s : State) : (timerExpired s).patience = s.patience := rfl
@[simp] theorem timerExpired_rdata (s : State) : (timerExpired s).rdata = s.rdata := rfl
@[simp] theorem timerExpired_memData (s : State) : (timerExpired s).memData = s.memData := rfl
@[simp] theorem timerExpired_crcOut (s : State) : (timerExpired s).crcOut = s.crcOut := rfl
@[simp] theorem timerExpired_draws (s : State) : (timerExpired s).draws = s.draws := rfl
@[simp] theorem timerExpired_cfg (s : State) : (timerExpired s).cfg = s.cfg := rfl

/-! ## recordCtrl -/

@[simp] theorem recordCtrl_state (b : Byte) (s : State) : (recordCtrl b s).state = s.state := rfl
@[simp] theorem recordCtrl_phase (b : Byte) (s : State) : (recordCtrl b s).phase = s.phase := rfl
@[simp] theorem recordCtrl_idx (b : Byte) (s : State) : (recordCtrl b s).idx = s.idx := rfl
@[simp] theorem recordCtrl_result (b : Byte) (s : State) : (recordCtrl b s).result = s.result := rfl
@[simp] theorem recordCtrl_bufBase (b : Byte) (s : State) : (recordCtrl b s).bufBase = s.bufBase := rfl
@[simp] theorem recordCtrl_bufLen (b : Byte) (s : State) : (recordCtrl b s).bufLen = s.bufLen := rfl
@[simp] theorem recordCtrl_count (b : Byte) (s : State) : (recordCtrl b s).count = s.count := rfl
@[simp] theorem recordCtrl_expSeq (b : Byte) (s : State) : (recordCtrl b s).expSeq = s.expSeq := rfl
@[simp] theorem recordCtrl_rxSeq (b : Byte) (s : State) : (recordCtrl b s).rxSeq = s.rxSeq := rfl
@[simp] theorem recordCtrl_rxSeqc (b : Byte) (s : State) : (recordCtrl b s).rxSeqc = s.rxSeqc := rfl
@[simp] theorem recordCtrl_lastCtrl (b : Byte) (s : State) : (recordCtrl b s).lastCtrl = b := rfl
@[simp] theorem recordCtrl_calcCrc (b : Byte) (s : State) : (recordCtrl b s).calcCrc = s.calcCrc := rfl
@[simp] theorem recordCtrl_rxCrc (b : Byte) (s : State) : (recordCtrl b s).rxCrc = s.rxCrc := rfl
@[simp] theorem recordCtrl_pkt (b : Byte) (s : State) : (recordCtrl b s).pkt = s.pkt := rfl
@[simp] theorem recordCtrl_txv (b : Byte) (s : State) : (recordCtrl b s).txv = s.txv := rfl
@[simp] theorem recordCtrl_txb (b : Byte) (s : State) : (recordCtrl b s).txb = s.txb := rfl
@[simp] theorem recordCtrl_tmr (b : Byte) (s : State) : (recordCtrl b s).tmr = s.tmr := rfl
@[simp] theorem recordCtrl_mem (b : Byte) (s : State) : (recordCtrl b s).mem = s.mem := rfl
@[simp] theorem recordCtrl_txStream (b : Byte) (s : State) : (recordCtrl b s).txStream = s.txStream := rfl
@[simp] theorem recordCtrl_events (b : Byte) (s : State) : (recordCtrl b s).events = s.events := rfl
@[simp] theorem recordCtrl_liberties (b : Byte) (s : State) : (recordCtrl b s).liberties = s.liberties := rfl
@[simp] theorem recordCtrl_patience (b : Byte) (s : State) : (recordCtrl b s).patience = s.patience := rfl
@[simp] theorem recordCtrl_rdata (b : Byte) (s : State) : (recordCtrl b s).rdata = s.rdata := rfl
@[simp] theorem recordCtrl_memData (b : Byte) (s : State) : (recordCtrl b s).memData = s.memData := rfl
@[simp] theorem recordCtrl_crcOut (b : Byte) (s : State) : (recordCtrl b s).crcOut = s.crcOut := rfl
@[simp] theorem recordCtrl_draws (b : Byte) (s : State) : (recordCtrl b s).draws = s.draws := rfl
@[simp] theorem recordCtrl_cfg (b : Byte) (s : State) : (recordCtrl b s).cfg = s.cfg := rfl

/-! ## abort -/

@[simp] theorem abort_state (c : XferResult) (s : State) : (abort c s).state = .aborted := rfl
@[simp] theorem abort_phase (c : XferResult) (s : State) : (abort c s).phase = .ctrl := rfl
@[simp] theorem abort_idx (c : XferResult) (s : State) : (abort c s).idx = 0 := rfl
@[simp] theorem abort_result (c : XferResult) (s : State) : (abort c s).result = c := rfl
@[simp] theorem abort_bufBase (c : XferResult) (s : State) : (abort c s).bufBase = s.bufBase := rfl
@[simp] theorem abort_bufLen (c : XferResult) (s : State) : (abort c s).bufLen = s.bufLen := rfl
@[simp] theorem abort_count (c : XferResult) (s : State) : (abort c s).count = s.count := rfl
@[simp] theorem abort_expSeq (c : XferResult) (s : State) : (abort c s).expSeq = s.expSeq := rfl
@[simp] theorem abort_rxSeq (c : XferResult) (s : State) : (abort c s).rxSeq = s.rxSeq := rfl
@[simp] theorem abort_rxSeqc (c : XferResult) (s : State) : (abort c s).rxSeqc = s.rxSeqc := rfl
@[simp] theorem abort_lastCtrl (c : XferResult) (s : State) : (abort c s).lastCtrl = s.lastCtrl := rfl
@[simp] theorem abort_calcCrc (c : XferResult) (s : State) : (abort c s).calcCrc = s.calcCrc := rfl
@[simp] theorem abort_rxCrc (c : XferResult) (s : State) : (abort c s).rxCrc = s.rxCrc := rfl
@[simp] theorem abort_pkt (c : XferResult) (s : State) : (abort c s).pkt = s.pkt := rfl
@[simp] theorem abort_txv (c : XferResult) (s : State) : (abort c s).txv = s.txv := rfl
@[simp] theorem abort_txb (c : XferResult) (s : State) : (abort c s).txb = s.txb := rfl
@[simp] theorem abort_tmr (c : XferResult) (s : State) : (abort c s).tmr = s.tmr := rfl
@[simp] theorem abort_mem (c : XferResult) (s : State) : (abort c s).mem = s.mem := rfl
@[simp] theorem abort_txStream (c : XferResult) (s : State) : (abort c s).txStream = s.txStream := rfl
@[simp] theorem abort_events (c : XferResult) (s : State) : (abort c s).events = s.events := rfl
@[simp] theorem abort_liberties (c : XferResult) (s : State) : (abort c s).liberties = s.liberties := rfl
@[simp] theorem abort_patience (c : XferResult) (s : State) : (abort c s).patience = s.patience := rfl
@[simp] theorem abort_rdata (c : XferResult) (s : State) : (abort c s).rdata = s.rdata := rfl
@[simp] theorem abort_memData (c : XferResult) (s : State) : (abort c s).memData = s.memData := rfl
@[simp] theorem abort_crcOut (c : XferResult) (s : State) : (abort c s).crcOut = s.crcOut := rfl
@[simp] theorem abort_draws (c : XferResult) (s : State) : (abort c s).draws = s.draws := rfl
@[simp] theorem abort_cfg (c : XferResult) (s : State) : (abort c s).cfg = s.cfg := rfl

/-! ## startFrame -/

@[simp] theorem startFrame_state (s : State) : (startFrame s).state = s.state := rfl
@[simp] theorem startFrame_phase (s : State) : (startFrame s).phase = .seq := rfl
@[simp] theorem startFrame_idx (s : State) : (startFrame s).idx = 0 := rfl
@[simp] theorem startFrame_result (s : State) : (startFrame s).result = s.result := rfl
@[simp] theorem startFrame_bufBase (s : State) : (startFrame s).bufBase = s.bufBase := rfl
@[simp] theorem startFrame_bufLen (s : State) : (startFrame s).bufLen = s.bufLen := rfl
@[simp] theorem startFrame_count (s : State) : (startFrame s).count = s.count := rfl
@[simp] theorem startFrame_expSeq (s : State) : (startFrame s).expSeq = s.expSeq := rfl
@[simp] theorem startFrame_rxSeq (s : State) : (startFrame s).rxSeq = s.rxSeq := rfl
@[simp] theorem startFrame_rxSeqc (s : State) : (startFrame s).rxSeqc = s.rxSeqc := rfl
@[simp] theorem startFrame_lastCtrl (s : State) : (startFrame s).lastCtrl = s.lastCtrl := rfl
@[simp] theorem startFrame_calcCrc (s : State) : (startFrame s).calcCrc = crcInit := rfl
@[simp] theorem startFrame_rxCrc (s : State) : (startFrame s).rxCrc = s.rxCrc := rfl
@[simp] theorem startFrame_pkt (s : State) : (startFrame s).pkt = s.pkt := rfl
@[simp] theorem startFrame_txv (s : State) : (startFrame s).txv = s.txv := rfl
@[simp] theorem startFrame_txb (s : State) : (startFrame s).txb = s.txb := rfl
@[simp] theorem startFrame_tmr (s : State) : (startFrame s).tmr = s.cfg.tByte := rfl
@[simp] theorem startFrame_mem (s : State) : (startFrame s).mem = s.mem := rfl
@[simp] theorem startFrame_txStream (s : State) : (startFrame s).txStream = s.txStream := rfl
@[simp] theorem startFrame_events (s : State) : (startFrame s).events = s.events := rfl
@[simp] theorem startFrame_liberties (s : State) : (startFrame s).liberties = s.liberties := rfl
@[simp] theorem startFrame_patience (s : State) : (startFrame s).patience = s.patience := rfl
@[simp] theorem startFrame_rdata (s : State) : (startFrame s).rdata = s.rdata := rfl
@[simp] theorem startFrame_memData (s : State) : (startFrame s).memData = s.memData := rfl
@[simp] theorem startFrame_crcOut (s : State) : (startFrame s).crcOut = s.crcOut := rfl
@[simp] theorem startFrame_draws (s : State) : (startFrame s).draws = s.draws := rfl
@[simp] theorem startFrame_cfg (s : State) : (startFrame s).cfg = s.cfg := rfl

/-! ## endTransmission -/

@[simp] theorem endTransmission_state (s : State) : (endTransmission s).state = .done := rfl
@[simp] theorem endTransmission_phase (s : State) : (endTransmission s).phase = s.phase := rfl
@[simp] theorem endTransmission_idx (s : State) : (endTransmission s).idx = s.idx := rfl
@[simp] theorem endTransmission_result (s : State) : (endTransmission s).result = .ok := rfl
@[simp] theorem endTransmission_bufBase (s : State) : (endTransmission s).bufBase = s.bufBase := rfl
@[simp] theorem endTransmission_bufLen (s : State) : (endTransmission s).bufLen = s.bufLen := rfl
@[simp] theorem endTransmission_count (s : State) : (endTransmission s).count = s.count := rfl
@[simp] theorem endTransmission_expSeq (s : State) : (endTransmission s).expSeq = s.expSeq := rfl
@[simp] theorem endTransmission_rxSeq (s : State) : (endTransmission s).rxSeq = s.rxSeq := rfl
@[simp] theorem endTransmission_rxSeqc (s : State) : (endTransmission s).rxSeqc = s.rxSeqc := rfl
@[simp] theorem endTransmission_lastCtrl (s : State) : (endTransmission s).lastCtrl = s.lastCtrl := rfl
@[simp] theorem endTransmission_calcCrc (s : State) : (endTransmission s).calcCrc = s.calcCrc := rfl
@[simp] theorem endTransmission_rxCrc (s : State) : (endTransmission s).rxCrc = s.rxCrc := rfl
@[simp] theorem endTransmission_pkt (s : State) : (endTransmission s).pkt = s.pkt := rfl
@[simp] theorem endTransmission_txv (s : State) : (endTransmission s).txv = true := rfl
@[simp] theorem endTransmission_txb (s : State) : (endTransmission s).txb = byteACK := rfl
@[simp] theorem endTransmission_tmr (s : State) : (endTransmission s).tmr = s.tmr := rfl
@[simp] theorem endTransmission_mem (s : State) : (endTransmission s).mem = s.mem := rfl
@[simp] theorem endTransmission_txStream (s : State) : (endTransmission s).txStream = s.txStream := rfl
@[simp] theorem endTransmission_events (s : State) : (endTransmission s).events = s.events := rfl
@[simp] theorem endTransmission_liberties (s : State) : (endTransmission s).liberties = s.liberties := rfl
@[simp] theorem endTransmission_patience (s : State) : (endTransmission s).patience = s.patience := rfl
@[simp] theorem endTransmission_rdata (s : State) : (endTransmission s).rdata = s.rdata := rfl
@[simp] theorem endTransmission_memData (s : State) : (endTransmission s).memData = s.memData := rfl
@[simp] theorem endTransmission_crcOut (s : State) : (endTransmission s).crcOut = s.crcOut := rfl
@[simp] theorem endTransmission_draws (s : State) : (endTransmission s).draws = s.draws := rfl
@[simp] theorem endTransmission_cfg (s : State) : (endTransmission s).cfg = s.cfg := rfl

/-! ## rejectFrame -/

@[simp] theorem rejectFrame_state (c : RejectCause) (s : State) : (rejectFrame c s).state = .aborted := rfl
@[simp] theorem rejectFrame_phase (c : RejectCause) (s : State) : (rejectFrame c s).phase = .ctrl := rfl
@[simp] theorem rejectFrame_idx (c : RejectCause) (s : State) : (rejectFrame c s).idx = 0 := rfl
@[simp] theorem rejectFrame_result (c : RejectCause) (s : State) : (rejectFrame c s).result = c.result := rfl
@[simp] theorem rejectFrame_bufBase (c : RejectCause) (s : State) : (rejectFrame c s).bufBase = s.bufBase := rfl
@[simp] theorem rejectFrame_bufLen (c : RejectCause) (s : State) : (rejectFrame c s).bufLen = s.bufLen := rfl
@[simp] theorem rejectFrame_count (c : RejectCause) (s : State) : (rejectFrame c s).count = s.count := rfl
@[simp] theorem rejectFrame_expSeq (c : RejectCause) (s : State) : (rejectFrame c s).expSeq = s.expSeq := rfl
@[simp] theorem rejectFrame_rxSeq (c : RejectCause) (s : State) : (rejectFrame c s).rxSeq = s.rxSeq := rfl
@[simp] theorem rejectFrame_rxSeqc (c : RejectCause) (s : State) : (rejectFrame c s).rxSeqc = s.rxSeqc := rfl
@[simp] theorem rejectFrame_lastCtrl (c : RejectCause) (s : State) : (rejectFrame c s).lastCtrl = s.lastCtrl := rfl
@[simp] theorem rejectFrame_calcCrc (c : RejectCause) (s : State) : (rejectFrame c s).calcCrc = s.calcCrc := rfl
@[simp] theorem rejectFrame_rxCrc (c : RejectCause) (s : State) : (rejectFrame c s).rxCrc = s.rxCrc := rfl
@[simp] theorem rejectFrame_pkt (c : RejectCause) (s : State) : (rejectFrame c s).pkt = s.pkt := rfl
@[simp] theorem rejectFrame_txv (c : RejectCause) (s : State) : (rejectFrame c s).txv = true := rfl
@[simp] theorem rejectFrame_txb (c : RejectCause) (s : State) : (rejectFrame c s).txb = byteCAN := rfl
@[simp] theorem rejectFrame_tmr (c : RejectCause) (s : State) : (rejectFrame c s).tmr = s.tmr := rfl
@[simp] theorem rejectFrame_mem (c : RejectCause) (s : State) : (rejectFrame c s).mem = s.mem := rfl
@[simp] theorem rejectFrame_txStream (c : RejectCause) (s : State) : (rejectFrame c s).txStream = s.txStream := rfl
@[simp] theorem rejectFrame_events (c : RejectCause) (s : State) : (rejectFrame c s).events = s.events := rfl
@[simp] theorem rejectFrame_liberties (c : RejectCause) (s : State) : (rejectFrame c s).liberties = s.liberties := rfl
@[simp] theorem rejectFrame_patience (c : RejectCause) (s : State) : (rejectFrame c s).patience = s.patience := rfl
@[simp] theorem rejectFrame_rdata (c : RejectCause) (s : State) : (rejectFrame c s).rdata = s.rdata := rfl
@[simp] theorem rejectFrame_memData (c : RejectCause) (s : State) : (rejectFrame c s).memData = s.memData := rfl
@[simp] theorem rejectFrame_crcOut (c : RejectCause) (s : State) : (rejectFrame c s).crcOut = s.crcOut := rfl
@[simp] theorem rejectFrame_draws (c : RejectCause) (s : State) : (rejectFrame c s).draws = s.draws := rfl
@[simp] theorem rejectFrame_cfg (c : RejectCause) (s : State) : (rejectFrame c s).cfg = s.cfg := rfl

/-! ## commitWrite -/

@[simp] theorem commitWrite_state (s : State) : (commitWrite s).state = s.state := rfl
@[simp] theorem commitWrite_phase (s : State) : (commitWrite s).phase = s.phase := rfl
@[simp] theorem commitWrite_idx (s : State) : (commitWrite s).idx = s.idx + 1 := rfl
@[simp] theorem commitWrite_result (s : State) : (commitWrite s).result = s.result := rfl
@[simp] theorem commitWrite_bufBase (s : State) : (commitWrite s).bufBase = s.bufBase := rfl
@[simp] theorem commitWrite_bufLen (s : State) : (commitWrite s).bufLen = s.bufLen := rfl
@[simp] theorem commitWrite_count (s : State) : (commitWrite s).count = s.count := rfl
@[simp] theorem commitWrite_expSeq (s : State) : (commitWrite s).expSeq = s.expSeq := rfl
@[simp] theorem commitWrite_rxSeq (s : State) : (commitWrite s).rxSeq = s.rxSeq := rfl
@[simp] theorem commitWrite_rxSeqc (s : State) : (commitWrite s).rxSeqc = s.rxSeqc := rfl
@[simp] theorem commitWrite_lastCtrl (s : State) : (commitWrite s).lastCtrl = s.lastCtrl := rfl
@[simp] theorem commitWrite_calcCrc (s : State) : (commitWrite s).calcCrc = s.calcCrc := rfl
@[simp] theorem commitWrite_rxCrc (s : State) : (commitWrite s).rxCrc = s.rxCrc := rfl
@[simp] theorem commitWrite_pkt (s : State) : (commitWrite s).pkt = s.pkt := rfl
@[simp] theorem commitWrite_txv (s : State) : (commitWrite s).txv = s.txv := rfl
@[simp] theorem commitWrite_txb (s : State) : (commitWrite s).txb = s.txb := rfl
@[simp] theorem commitWrite_tmr (s : State) : (commitWrite s).tmr = s.tmr := rfl
@[simp] theorem commitWrite_mem (s : State) : (commitWrite s).mem = Mem.write s.mem s.destAddress s.stagedByte := rfl
@[simp] theorem commitWrite_txStream (s : State) : (commitWrite s).txStream = s.txStream := rfl
@[simp] theorem commitWrite_events (s : State) : (commitWrite s).events = s.events := rfl
@[simp] theorem commitWrite_liberties (s : State) : (commitWrite s).liberties = s.liberties := rfl
@[simp] theorem commitWrite_patience (s : State) : (commitWrite s).patience = s.patience := rfl
@[simp] theorem commitWrite_rdata (s : State) : (commitWrite s).rdata = s.rdata := rfl
@[simp] theorem commitWrite_memData (s : State) : (commitWrite s).memData = s.memData := rfl
@[simp] theorem commitWrite_crcOut (s : State) : (commitWrite s).crcOut = s.crcOut := rfl
@[simp] theorem commitWrite_draws (s : State) : (commitWrite s).draws = s.draws := rfl
@[simp] theorem commitWrite_cfg (s : State) : (commitWrite s).cfg = s.cfg := rfl

/-! ## finishFrame -/

@[simp] theorem finishFrame_state (s : State) : (finishFrame s).state = s.state := rfl
@[simp] theorem finishFrame_phase (s : State) : (finishFrame s).phase = .ctrl := rfl
@[simp] theorem finishFrame_idx (s : State) : (finishFrame s).idx = 0 := rfl
@[simp] theorem finishFrame_result (s : State) : (finishFrame s).result = s.result := rfl
@[simp] theorem finishFrame_bufBase (s : State) : (finishFrame s).bufBase = s.bufBase := rfl
@[simp] theorem finishFrame_bufLen (s : State) : (finishFrame s).bufLen = s.bufLen := rfl
@[simp] theorem finishFrame_count (s : State) : (finishFrame s).count = s.count + 128 := rfl
@[simp] theorem finishFrame_expSeq (s : State) : (finishFrame s).expSeq = s.expSeq + 1 := rfl
@[simp] theorem finishFrame_rxSeq (s : State) : (finishFrame s).rxSeq = s.rxSeq := rfl
@[simp] theorem finishFrame_rxSeqc (s : State) : (finishFrame s).rxSeqc = s.rxSeqc := rfl
@[simp] theorem finishFrame_lastCtrl (s : State) : (finishFrame s).lastCtrl = s.lastCtrl := rfl
@[simp] theorem finishFrame_calcCrc (s : State) : (finishFrame s).calcCrc = s.calcCrc := rfl
@[simp] theorem finishFrame_rxCrc (s : State) : (finishFrame s).rxCrc = s.rxCrc := rfl
@[simp] theorem finishFrame_pkt (s : State) : (finishFrame s).pkt = s.pkt := rfl
@[simp] theorem finishFrame_txv (s : State) : (finishFrame s).txv = true := rfl
@[simp] theorem finishFrame_txb (s : State) : (finishFrame s).txb = byteACK := rfl
@[simp] theorem finishFrame_tmr (s : State) : (finishFrame s).tmr = s.tmr := rfl
@[simp] theorem finishFrame_mem (s : State) : (finishFrame s).mem = s.mem := rfl
@[simp] theorem finishFrame_txStream (s : State) : (finishFrame s).txStream = s.txStream := rfl
@[simp] theorem finishFrame_events (s : State) : (finishFrame s).events = s.events := rfl
@[simp] theorem finishFrame_liberties (s : State) : (finishFrame s).liberties = s.liberties := rfl
@[simp] theorem finishFrame_patience (s : State) : (finishFrame s).patience = s.patience := rfl
@[simp] theorem finishFrame_rdata (s : State) : (finishFrame s).rdata = s.rdata := rfl
@[simp] theorem finishFrame_memData (s : State) : (finishFrame s).memData = s.memData := rfl
@[simp] theorem finishFrame_crcOut (s : State) : (finishFrame s).crcOut = s.crcOut := rfl
@[simp] theorem finishFrame_draws (s : State) : (finishFrame s).draws = s.draws := rfl
@[simp] theorem finishFrame_cfg (s : State) : (finishFrame s).cfg = s.cfg := rfl

/-! ## readReg -/

@[simp] theorem readReg_state (v : Word) (s : State) : (readReg v s).state = s.state := rfl
@[simp] theorem readReg_phase (v : Word) (s : State) : (readReg v s).phase = s.phase := rfl
@[simp] theorem readReg_idx (v : Word) (s : State) : (readReg v s).idx = s.idx := rfl
@[simp] theorem readReg_result (v : Word) (s : State) : (readReg v s).result = s.result := rfl
@[simp] theorem readReg_bufBase (v : Word) (s : State) : (readReg v s).bufBase = s.bufBase := rfl
@[simp] theorem readReg_bufLen (v : Word) (s : State) : (readReg v s).bufLen = s.bufLen := rfl
@[simp] theorem readReg_count (v : Word) (s : State) : (readReg v s).count = s.count := rfl
@[simp] theorem readReg_expSeq (v : Word) (s : State) : (readReg v s).expSeq = s.expSeq := rfl
@[simp] theorem readReg_rxSeq (v : Word) (s : State) : (readReg v s).rxSeq = s.rxSeq := rfl
@[simp] theorem readReg_rxSeqc (v : Word) (s : State) : (readReg v s).rxSeqc = s.rxSeqc := rfl
@[simp] theorem readReg_lastCtrl (v : Word) (s : State) : (readReg v s).lastCtrl = s.lastCtrl := rfl
@[simp] theorem readReg_calcCrc (v : Word) (s : State) : (readReg v s).calcCrc = s.calcCrc := rfl
@[simp] theorem readReg_rxCrc (v : Word) (s : State) : (readReg v s).rxCrc = s.rxCrc := rfl
@[simp] theorem readReg_pkt (v : Word) (s : State) : (readReg v s).pkt = s.pkt := rfl
@[simp] theorem readReg_txv (v : Word) (s : State) : (readReg v s).txv = s.txv := rfl
@[simp] theorem readReg_txb (v : Word) (s : State) : (readReg v s).txb = s.txb := rfl
@[simp] theorem readReg_tmr (v : Word) (s : State) : (readReg v s).tmr = s.tmr := rfl
@[simp] theorem readReg_mem (v : Word) (s : State) : (readReg v s).mem = s.mem := rfl
@[simp] theorem readReg_txStream (v : Word) (s : State) : (readReg v s).txStream = s.txStream := rfl
@[simp] theorem readReg_events (v : Word) (s : State) : (readReg v s).events = s.events := rfl
@[simp] theorem readReg_liberties (v : Word) (s : State) : (readReg v s).liberties = s.liberties := rfl
@[simp] theorem readReg_patience (v : Word) (s : State) : (readReg v s).patience = s.patience := rfl
@[simp] theorem readReg_rdata (v : Word) (s : State) : (readReg v s).rdata = v := rfl
@[simp] theorem readReg_memData (v : Word) (s : State) : (readReg v s).memData = s.memData := rfl
@[simp] theorem readReg_crcOut (v : Word) (s : State) : (readReg v s).crcOut = s.crcOut := rfl
@[simp] theorem readReg_draws (v : Word) (s : State) : (readReg v s).draws = s.draws := rfl
@[simp] theorem readReg_cfg (v : Word) (s : State) : (readReg v s).cfg = s.cfg := rfl

/-! ## openSession -/

@[simp] theorem openSession_state (s : State) : (openSession s).state = .awaitingStart := rfl
@[simp] theorem openSession_phase (s : State) : (openSession s).phase = .ctrl := rfl
@[simp] theorem openSession_idx (s : State) : (openSession s).idx = 0 := rfl
@[simp] theorem openSession_result (s : State) : (openSession s).result = .none := rfl
@[simp] theorem openSession_bufBase (s : State) : (openSession s).bufBase = s.bufBase := rfl
@[simp] theorem openSession_bufLen (s : State) : (openSession s).bufLen = s.bufLen := rfl
@[simp] theorem openSession_count (s : State) : (openSession s).count = 0 := rfl
@[simp] theorem openSession_expSeq (s : State) : (openSession s).expSeq = 1 := rfl
@[simp] theorem openSession_rxSeq (s : State) : (openSession s).rxSeq = 0 := rfl
@[simp] theorem openSession_rxSeqc (s : State) : (openSession s).rxSeqc = 0 := rfl
@[simp] theorem openSession_lastCtrl (s : State) : (openSession s).lastCtrl = 0 := rfl
@[simp] theorem openSession_calcCrc (s : State) : (openSession s).calcCrc = crcInit := rfl
@[simp] theorem openSession_rxCrc (s : State) : (openSession s).rxCrc = 0 := rfl
@[simp] theorem openSession_pkt (s : State) : (openSession s).pkt = s.pkt := rfl
@[simp] theorem openSession_txv (s : State) : (openSession s).txv = true := rfl
@[simp] theorem openSession_txb (s : State) : (openSession s).txb = byteC := rfl
@[simp] theorem openSession_tmr (s : State) : (openSession s).tmr = s.tmr := rfl
@[simp] theorem openSession_mem (s : State) : (openSession s).mem = s.mem := rfl
@[simp] theorem openSession_txStream (s : State) : (openSession s).txStream = s.txStream := rfl
@[simp] theorem openSession_events (s : State) : (openSession s).events = s.events := rfl
@[simp] theorem openSession_liberties (s : State) : (openSession s).liberties = s.liberties := rfl
@[simp] theorem openSession_patience (s : State) : (openSession s).patience = s.patience := rfl
@[simp] theorem openSession_rdata (s : State) : (openSession s).rdata = s.rdata := rfl
@[simp] theorem openSession_memData (s : State) : (openSession s).memData = s.memData := rfl
@[simp] theorem openSession_crcOut (s : State) : (openSession s).crcOut = s.crcOut := rfl
@[simp] theorem openSession_draws (s : State) : (openSession s).draws = s.draws := rfl
@[simp] theorem openSession_cfg (s : State) : (openSession s).cfg = s.cfg := rfl

/-! ## resetRegisters -/

@[simp] theorem resetRegisters_state (s : State) : (resetRegisters s).state = State.reset.state := rfl
@[simp] theorem resetRegisters_phase (s : State) : (resetRegisters s).phase = State.reset.phase := rfl
@[simp] theorem resetRegisters_idx (s : State) : (resetRegisters s).idx = State.reset.idx := rfl
@[simp] theorem resetRegisters_result (s : State) : (resetRegisters s).result = State.reset.result := rfl
@[simp] theorem resetRegisters_bufBase (s : State) : (resetRegisters s).bufBase = State.reset.bufBase := rfl
@[simp] theorem resetRegisters_bufLen (s : State) : (resetRegisters s).bufLen = State.reset.bufLen := rfl
@[simp] theorem resetRegisters_count (s : State) : (resetRegisters s).count = State.reset.count := rfl
@[simp] theorem resetRegisters_expSeq (s : State) : (resetRegisters s).expSeq = State.reset.expSeq := rfl
@[simp] theorem resetRegisters_rxSeq (s : State) : (resetRegisters s).rxSeq = State.reset.rxSeq := rfl
@[simp] theorem resetRegisters_rxSeqc (s : State) : (resetRegisters s).rxSeqc = State.reset.rxSeqc := rfl
@[simp] theorem resetRegisters_lastCtrl (s : State) : (resetRegisters s).lastCtrl = State.reset.lastCtrl := rfl
@[simp] theorem resetRegisters_calcCrc (s : State) : (resetRegisters s).calcCrc = State.reset.calcCrc := rfl
@[simp] theorem resetRegisters_rxCrc (s : State) : (resetRegisters s).rxCrc = State.reset.rxCrc := rfl
@[simp] theorem resetRegisters_pkt (s : State) : (resetRegisters s).pkt = State.reset.pkt := rfl
@[simp] theorem resetRegisters_txv (s : State) : (resetRegisters s).txv = State.reset.txv := rfl
@[simp] theorem resetRegisters_txb (s : State) : (resetRegisters s).txb = State.reset.txb := rfl
@[simp] theorem resetRegisters_tmr (s : State) : (resetRegisters s).tmr = State.reset.tmr := rfl
@[simp] theorem resetRegisters_mem (s : State) : (resetRegisters s).mem = s.mem := rfl
@[simp] theorem resetRegisters_txStream (s : State) : (resetRegisters s).txStream = s.txStream := rfl
@[simp] theorem resetRegisters_events (s : State) : (resetRegisters s).events = s.events := rfl
@[simp] theorem resetRegisters_liberties (s : State) : (resetRegisters s).liberties = s.liberties := rfl
@[simp] theorem resetRegisters_patience (s : State) : (resetRegisters s).patience = s.patience := rfl
@[simp] theorem resetRegisters_rdata (s : State) : (resetRegisters s).rdata = s.rdata := rfl
@[simp] theorem resetRegisters_memData (s : State) : (resetRegisters s).memData = s.memData := rfl
@[simp] theorem resetRegisters_crcOut (s : State) : (resetRegisters s).crcOut = s.crcOut := rfl
@[simp] theorem resetRegisters_draws (s : State) : (resetRegisters s).draws = s.draws := rfl
@[simp] theorem resetRegisters_cfg (s : State) : (resetRegisters s).cfg = s.cfg := rfl

end Sys2Proof.Machine
end

