-- ==== Sys2Proof/Laws/Ops.lean ====
section
/-! SUPPORT. One lemma per shared operation that says everything it can do; the proofs cite it instead of unfolding
the operation. -/

namespace Sys2Proof.Machine

/-! ## Positions -/

theorem State.position_eq (s : State) : s.position = ⟨s.state, s.phase, s.idx, s.txv⟩ := rfl

theorem Position.waiting_iff (p : Position) :
    p.waiting = true ↔ p.txv = false ∧ (p.state = .awaitingStart ∨ (p.state = .receiving ∧ p.phase ≠ .commit)) := by
  simp [Position.waiting, bne_iff_ne]

theorem Position.committing_iff (p : Position) :
    p.committing = true ↔ p.state = .receiving ∧ p.phase = .commit ∧ p.idx.toNat < 128 := by
  simp [Position.committing, BitVec.ult, and_assoc]

theorem State.busy_iff (s : State) :
    s.busy = true ↔ s.state = .awaitingStart ∨ s.state = .receiving ∨ s.txv = true := by
  simp [State.busy, or_assoc]

theorem State.busy_eq_false (s : State) :
    s.busy = false ↔ s.state ≠ .awaitingStart ∧ s.state ≠ .receiving ∧ s.txv = false := by
  simp [State.busy, and_assoc, beq_eq_false_iff_ne]

/-! ## The guard -/

theorem configRefusal_none (c : Config) : configRefusal c = none ↔ c.Admitted := by
  unfold configRefusal
  split
  · simp [Config.Admitted, *]
  · split <;> simp_all [Config.Admitted]

theorem configRefusal_some {c : Config} {r : Refusal} (h : configRefusal c = some r) :
    (r = .nakRetry ∧ c.nakRetry = true) ∨ (r = .wideAddress ∧ c.nakRetry = false ∧ 32 < c.aw) := by
  unfold configRefusal at h
  split at h
  · simp_all
  · split at h <;> simp_all

/-- Where the parameters are admitted and the row is in its context, the guard is transparent. -/
theorem guarded_pass {i : Instr} {s : State} (hc : s.cfg.Admitted) (hi : i.inContext s.position = true) (o : Answer) :
    guarded i s o = o := by
  simp [guarded, (configRefusal_none _).2 hc, hi]

/-- Outside its context a row is refused by name (log 6). -/
theorem guarded_notEnabled {i : Instr} {s : State} (hc : s.cfg.Admitted) (hi : i.inContext s.position = false)
    (o : Answer) : guarded i s o = .refused .notEnabled := by
  simp [guarded, (configRefusal_none _).2 hc, hi]

/-- A guarded operation answers a next state only where it is admitted, in its context, and answers so itself. -/
theorem guarded_next {i : Instr} {s t : State} {o : Answer} (h : guarded i s o = .next t) :
    s.cfg.Admitted ∧ i.inContext s.position = true ∧ o = .next t := by
  unfold guarded at h
  split at h
  · cases h
  · rename_i hc
    split at h
    · exact ⟨(configRefusal_none _).1 hc, ‹_›, h⟩
    · cases h

/-! ## Control bytes -/

theorem unrecognisedCtrl_discard {s : State} (h : s.cfg.unknownCtrl = .discard) :
    unrecognisedCtrl s = restartWait s := by simp [unrecognisedCtrl, h]

theorem unrecognisedCtrl_abort {s : State} (h : s.cfg.unknownCtrl = .abort) :
    unrecognisedCtrl s = abort .unknownCtrl s := by simp [unrecognisedCtrl, h]

/-- Everything an unrecognised control byte can do (42_transfer_fsm.md R177). -/
theorem unrecognisedCtrl_cases (s : State) :
    (s.cfg.unknownCtrl = .discard ∧ unrecognisedCtrl s = restartWait s) ∨
    (s.cfg.unknownCtrl = .abort ∧ unrecognisedCtrl s = abort .unknownCtrl s) := by
  cases h : s.cfg.unknownCtrl
  · exact .inl ⟨rfl, unrecognisedCtrl_discard h⟩
  · exact .inr ⟨rfl, unrecognisedCtrl_abort h⟩

/-- Everything a control byte can do (30_encoding.md R81): the cause of an abort is one of three of R242. -/
theorem dispatchCtrl_cases (b : Byte) (s : State) :
    dispatchCtrl b s = startFrame (recordCtrl b s) ∨
    dispatchCtrl b s = endTransmission (recordCtrl b s) ∨
    (∃ c : XferResult, (c = .senderCan ∨ c = .senderEsc ∨ c = .unknownCtrl) ∧
      dispatchCtrl b s = abort c (recordCtrl b s)) ∨
    dispatchCtrl b s = restartWait (recordCtrl b s) := by
  unfold dispatchCtrl
  split
  · exact .inl rfl
  split
  · exact .inr (.inl rfl)
  split
  · exact .inr (.inr (.inl ⟨.senderCan, by simp, rfl⟩))
  split
  · exact .inr (.inr (.inl ⟨.senderEsc, by simp, rfl⟩))
  · rcases unrecognisedCtrl_cases (recordCtrl b s) with ⟨-, h⟩ | ⟨-, h⟩
    · exact .inr (.inr (.inr h))
    · exact .inr (.inr (.inl ⟨.unknownCtrl, by simp, h⟩))

/-! ## Validation -/

/-- Everything `accept()` can do (41_packet_reader.md R142). -/
theorem acceptFrame_cases (s : State) :
    (s.bufLen.toNat < s.count.toNat + 128 ∧ acceptFrame s = .fault .bufferOverrun) ∨
    (s.count.toNat + 128 ≤ s.bufLen.toNat ∧ acceptFrame s = .next { s with idx := 0, phase := .commit }) := by
  unfold acceptFrame
  split
  · exact .inl ⟨‹_›, rfl⟩
  · exact .inr ⟨by omega, rfl⟩

/-- Every check passes (41_packet_reader.md R140). -/
theorem validateFrame_pass {s : State} (hc : s.rxCrc = s.calcCrc) (hs : s.rxSeq = s.expSeq)
    (hp : s.rxSeqc = ~~~s.rxSeq) : validateFrame s = acceptFrame s := by
  have : s.crcOk && s.seqOk && s.cmpOk := by simp [State.crcOk, State.seqOk, State.cmpOk, hc, hs, hp]
  simp [validateFrame, this]

theorem validateFrame_badCrc {s : State} (hc : s.rxCrc ≠ s.calcCrc) :
    validateFrame s = .next (rejectFrame .badCrc s) := by
  simp [validateFrame, State.crcOk, hc]

theorem validateFrame_badSeq {s : State} (hc : s.rxCrc = s.calcCrc) (hs : s.rxSeq ≠ s.expSeq) :
    validateFrame s = .next (rejectFrame .badSeq s) := by
  simp [validateFrame, State.crcOk, State.seqOk, hc, hs]

theorem validateFrame_badSeqc {s : State} (hc : s.rxCrc = s.calcCrc) (hs : s.rxSeq = s.expSeq)
    (hp : s.rxSeqc ≠ ~~~s.rxSeq) : validateFrame s = .next (rejectFrame .badSeqc s) := by
  have hp' : s.rxSeqc ≠ ~~~s.expSeq := hs ▸ hp
  simp [validateFrame, State.crcOk, State.seqOk, State.cmpOk, hc, hs, hp']

/-- Everything `validate()` can do (41_packet_reader.md R140). -/
theorem validateFrame_cases (s : State) :
    (s.rxCrc = s.calcCrc ∧ s.rxSeq = s.expSeq ∧ s.rxSeqc = ~~~s.rxSeq ∧ validateFrame s = acceptFrame s) ∨
    (∃ c : RejectCause, validateFrame s = .next (rejectFrame c s)) := by
  by_cases hc : s.rxCrc = s.calcCrc
  · by_cases hs : s.rxSeq = s.expSeq
    · by_cases hp : s.rxSeqc = ~~~s.rxSeq
      · exact .inl ⟨hc, hs, hp, validateFrame_pass hc hs hp⟩
      · exact .inr ⟨_, validateFrame_badSeqc hc hs hp⟩
    · exact .inr ⟨_, validateFrame_badSeq hc hs⟩
  · exact .inr ⟨_, validateFrame_badCrc hc⟩

/-- A validation that answers a next state rejects the frame, or accepts one that passes every check and fits. -/
theorem validateFrame_next {s t : State} (h : validateFrame s = .next t) :
    (s.rxCrc = s.calcCrc ∧ s.rxSeq = s.expSeq ∧ s.rxSeqc = ~~~s.rxSeq ∧ s.count.toNat + 128 ≤ s.bufLen.toNat ∧
      t = { s with idx := 0, phase := .commit }) ∨
    (∃ c : RejectCause, t = rejectFrame c s) := by
  rcases validateFrame_cases s with ⟨h1, h2, h3, h4⟩ | ⟨c, hc⟩
  · rcases acceptFrame_cases s with ⟨-, h5⟩ | ⟨h6, h5⟩
    · rw [h4, h5] at h
      cases h
    · rw [h4, h5] at h
      cases h
      exact .inl ⟨h1, h2, h3, h6, rfl⟩
  · rw [hc] at h
    cases h
    exact .inr ⟨c, rfl⟩

/-! ## Commit -/

theorem idx_succ_eq_128 {i : Byte} : i + 1 = 128 ↔ i = 127 := by bv_omega

/-- Everything a CommitStep can do (41_packet_reader.md R150). -/
theorem commitByte_cases (s : State) :
    (s.idx = 127 ∧ commitByte s = finishFrame (commitWrite s)) ∨ (s.idx ≠ 127 ∧ commitByte s = commitWrite s) := by
  unfold commitByte
  simp only [commitWrite_idx, idx_succ_eq_128]
  split
  · exact .inl ⟨‹_›, rfl⟩
  · exact .inr ⟨‹_›, rfl⟩

/-- A CommitStep's effect on memory is its one write. -/
theorem commitByte_mem (s : State) : (commitByte s).mem = Mem.write s.mem s.destAddress s.stagedByte := by
  rcases commitByte_cases s with ⟨-, h⟩ | ⟨-, h⟩ <;> simp [h]

/-! ## Transmit -/

/-- Everything `TxTake` can do: `TXB` is appended, `TXV` falls, and `TMR` keeps its value or is loaded (R183, R185). -/
theorem takeByte_cases (s : State) :
    ∃ n, (n = s.tmr ∨ n = s.cfg.tPoll ∨ n = s.cfg.tByte) ∧
      takeByte s = { s with txStream := s.txStream ++ [s.txb], txv := false, tmr := n } := by
  simp only [takeByte]
  split
  · split
    · exact ⟨_, .inr (.inl rfl), rfl⟩
    · exact ⟨_, .inl rfl, rfl⟩
  · split
    · exact ⟨_, .inr (.inr rfl), rfl⟩
    · exact ⟨_, .inl rfl, rfl⟩

/-! ## START -/

theorem State.regionWraps_iff (s : State) :
    s.regionWraps = true ↔ 2 ^ s.cfg.aw < s.bufBase.toNat + s.bufLen.toNat := by
  simp [State.regionWraps]

theorem State.regionWraps_eq_false (s : State) :
    s.regionWraps = false ↔ s.bufBase.toNat + s.bufLen.toNat ≤ 2 ^ s.cfg.aw := by
  simp [State.regionWraps]

/-- A START that answers a next state opens a session over a region that is admitted (43_host_interface.md R212). -/
theorem startTransfer_next {s t : State} (h : startTransfer s = .next t) :
    s.bufBase.toNat + s.bufLen.toNat ≤ 2 ^ s.cfg.aw ∧ s.regionHitsDevice = false ∧ t = openSession s := by
  unfold startTransfer at h
  split at h
  · cases h
  · split at h
    · cases h
    · rename_i hw hd
      cases h
      exact ⟨(State.regionWraps_eq_false s).1 (by simpa using hw), by simpa using hd, rfl⟩

theorem startTransfer_open {s : State} (hw : s.bufBase.toNat + s.bufLen.toNat ≤ 2 ^ s.cfg.aw)
    (hd : s.regionHitsDevice = false) : startTransfer s = .next (openSession s) := by
  simp [startTransfer, (State.regionWraps_eq_false s).2 hw, hd]

/-- `BUF_BASE` holds `AW` bits after a write (43_host_interface.md R216). -/
theorem addressBits_lt (aw : Nat) (v : Word) : (addressBits aw v).toNat < 2 ^ aw := by
  simp only [addressBits, BitVec.toNat_setWidth]
  exact lt_of_le_of_lt (Nat.mod_le _ _) (Nat.mod_lt _ (by positivity))

/-! ## Reset -/

/-- Everything the write in flight can do (70_reset_and_hazards.md R271). -/
theorem writeInFlight_cases (s : State) :
    (s.position.committing = false ∧ writeInFlight s = s) ∨
    (s.position.committing = true ∧ ∃ m, (m = s.mem ∨ m = Mem.write s.mem s.destAddress s.stagedByte) ∧
      writeInFlight s = { s with mem := m, draws := s.draws + 1 }) := by
  unfold writeInFlight
  split
  · refine .inr ⟨‹_›, _, ?_, rfl⟩
    split
    · exact .inr rfl
    · exact .inl rfl
  · exact .inl ⟨Bool.eq_false_iff.mpr ‹_›, rfl⟩

/-! ## Host accesses to memory -/

/-- A host access that answers a next state reaches ordinary memory (20_memory.md R64). -/
theorem hostAccess_next {a : Nat} {s t : State} {o : Answer} (h : hostAccess a s o = .next t) :
    a < 2 ^ s.cfg.aw ∧ isDevice s.cfg a = false ∧ o = .next t := by
  unfold hostAccess at h
  split at h
  · cases h
  · split at h
    · cases h
    · exact ⟨by omega, by simpa using ‹¬ isDevice _ _ = true›, h⟩

/-- A host read of memory changes only what it returned and the count of draws (20_memory.md R66). -/
theorem hostMemRead_next {addr : Word} {s t : State} (h : hostMemRead addr s = .next t) :
    ∃ v n, t = { s with memData := v, draws := n } := by
  obtain ⟨-, -, h⟩ := hostAccess_next h
  simp only [Host.Outcome.next.injEq] at h
  subst h
  split
  · exact ⟨_, _, rfl⟩
  · exact ⟨_, s.draws, rfl⟩

/-- A host write of memory stores one byte, and never into the region of a running transfer (20_memory.md R67). -/
theorem hostMemWrite_next {addr : Word} {v : Byte} {s t : State} (h : hostMemWrite addr v s = .next t) :
    (s.busy && s.inRegion addr.toNat) = false ∧ t = { s with mem := Mem.write s.mem addr.toNat v } := by
  obtain ⟨-, -, h⟩ := hostAccess_next h
  split at h
  · cases h
  · cases h
    exact ⟨by simpa using ‹¬ (_ && _) = true›, rfl⟩

/-! ## The CRC function -/

theorem crc16_nil (acc : Crc16) : crc16 acc [] = acc := rfl

theorem crc16_cons (acc : Crc16) (b : Byte) (bs : List Byte) : crc16 acc (b :: bs) = crc16 (crc16Update acc b) bs := rfl

theorem crc16_concat (acc : Crc16) (bs : List Byte) (b : Byte) :
    crc16 acc (bs ++ [b]) = crc16Update (crc16 acc bs) b := by
  simp [crc16, List.foldl_append]

/-! ## The staging buffer -/

/-- What a CommitStep stores while `IDX <= 127` (41_packet_reader.md R150). -/
theorem State.stagedByte_eq (s : State) (h : s.idx.toNat < 128) : s.stagedByte = s.pkt[s.idx.toNat] := by
  simp [State.stagedByte, h]

end Sys2Proof.Machine
end

