-- ==== Sys2Proof/Laws/Exec.lean ====
section
/-! SUPPORT. What an operation can do, said once: the inversion of `exec`. A proof about every operation takes the cases
of `Effect` instead of unfolding the meanings. -/

namespace Sys2Proof.Machine

/-- `Effect i s t` says that operation `i`, run at `s`, can answer `t`: what it needs of `s`, and what `t` is.
Operations with one effect share a case. -/
inductive Effect (i : Instr) (s t : State) : Prop where
  | soh (hi : i = .soh) (h : s.state = .receiving ∧ s.phase = .ctrl ∧ s.txv = false)
      (e : t = startFrame (recordCtrl byteSOH s))
  | eot (hi : i = .eot) (h : s.state = .receiving ∧ s.phase = .ctrl ∧ s.txv = false)
      (e : t = endTransmission (recordCtrl byteEOT s))
  | canRx (hi : i = .canRx) (h : s.state = .receiving ∧ s.phase = .ctrl ∧ s.txv = false)
      (e : t = abort .senderCan (recordCtrl byteCAN s))
  | escRx (hi : i = .escRx) (h : s.state = .receiving ∧ s.phase = .ctrl ∧ s.txv = false)
      (e : t = abort .senderEsc (recordCtrl byteESC s))
  | unrecognised (b : Byte)
      (hi : i = .otherCtrl b ∨ (i = .nakRx ∧ b = byteNAK) ∨ (i = .ackRx ∧ b = byteACK) ∨ (i = .stxRx ∧ b = byteSTX) ∨
        (i = .cRx ∧ b = byteC))
      (h : s.state = .receiving ∧ s.phase = .ctrl ∧ s.txv = false)
      (e : t = restartWait (recordCtrl b s) ∨ t = abort .unknownCtrl (recordCtrl b s))
  | handshakeReply (b : Byte) (hi : i = .handshakeReply b) (h : s.state = .awaitingStart ∧ s.txv = false)
      (e : t = dispatchCtrl b { s with state := .receiving })
  | seq (b : Byte) (hi : i = .seq b) (h : s.state = .receiving ∧ s.phase = .seq ∧ s.txv = false)
      (e : t = restartWait { s with rxSeq := b, phase := .seqc })
  | seqc (b : Byte) (hi : i = .seqc b) (h : s.state = .receiving ∧ s.phase = .seqc ∧ s.txv = false)
      (e : t = restartWait { s with rxSeqc := b, idx := 0, phase := .data })
  | data (b : Byte) (hi : i = .data b) (h : s.state = .receiving ∧ s.phase = .data ∧ s.txv = false)
      (hx : s.idx.toNat < 128)
      (e : t = restartWait { s with
        pkt := s.pkt.setIfInBounds s.idx.toNat b
        calcCrc := crc16Update s.calcCrc b
        idx := s.idx + 1
        phase := if s.idx + 1 = 128 then .crch else .data })
  | crch (b : Byte) (hi : i = .crch b) (h : s.state = .receiving ∧ s.phase = .crch ∧ s.txv = false)
      (e : t = restartWait { s with rxCrc := b ++ s.rxCrc.extractLsb' 0 8, phase := .crcl })
  | accepted (c : Crc16)
      (hi : (∃ b, i = .crcl b ∧ c = s.rxCrc.extractLsb' 8 8 ++ b) ∨ ((i = .validate ∨ i = .accept) ∧ c = s.rxCrc))
      (h : s.state = .receiving ∧ s.phase = .crcl ∧ s.txv = false)
      (hv : i ≠ .accept → c = s.calcCrc ∧ s.rxSeq = s.expSeq ∧ s.rxSeqc = ~~~s.rxSeq)
      (hl : s.count.toNat + 128 ≤ s.bufLen.toNat)
      (e : t = { s with rxCrc := c, idx := 0, phase := .commit })
  | rejected (c : Crc16) (cause : RejectCause)
      (hi : (∃ b, i = .crcl b ∧ c = s.rxCrc.extractLsb' 8 8 ++ b) ∨
        ((i = .validate ∨ i = .reject cause) ∧ c = s.rxCrc))
      (h : s.state = .receiving ∧ s.phase = .crcl ∧ s.txv = false)
      (e : t = rejectFrame cause { s with rxCrc := c })
  | commitStep (hi : i = .commitStep) (h : s.position.committing = true) (e : t = commitByte s)
  | commitEnd (hi : i = .commitEnd) (h : s.state = .receiving ∧ s.phase = .commit ∧ s.idx = 128)
      (e : t = finishFrame s)
  | emits (b : Byte) (hi : i = .txC ∨ i = .txAckFrame ∨ i = .txAckEot ∨ i = .txCan)
      (hb : b = byteC ∨ b = byteACK ∨ b = byteCAN)
      (h : (s.state = .awaitingStart ∨ s.state = .receiving) ∧ s.txv = false)
      (e : t = emit b s)
  | pollTimeout (hi : i = .pollTimeout) (h : s.state = .awaitingStart ∧ s.txv = false)
      (e : t = emit byteC (timerExpired s))
  | rxTimeout (hi : i = .rxTimeout) (h : s.state = .receiving ∧ s.phase ≠ .commit ∧ s.txv = false)
      (e : t = abort .rxTimeout (timerExpired s))
  | rxErrorAwait (hi : i = .rxErrorAwait) (h : s.state = .awaitingStart ∧ s.txv = false)
      (e : t = abort .rxError { s with state := .receiving })
  | rxError (hi : i = .rxError) (h : s.state = .receiving ∧ s.phase ≠ .commit ∧ s.txv = false)
      (e : t = abort .rxError s)
  | txTake (hi : i = .txTake) (h : s.txv = true) (e : t = takeByte s)
  | reset (hi : i = .reset) (e : t = resetRegisters (writeInFlight s))
  | opened (v : Word) (hi : i = .start v) (hv : v.getLsbD 0 = true) (h : s.busy = false)
      (hr : s.bufBase.toNat + s.bufLen.toNat ≤ 2 ^ s.cfg.aw) (hd : s.regionHitsDevice = false)
      (e : t = openSession s)
  | regRead (v : Word)
      (hi : i = .ctrlRead ∨ i = .statusRead ∨ i = .bufBaseAccess .read ∨ i = .bufLenAccess .read ∨
        i = .countRead .read ∨ i = .seqRead .read ∨ i = .crcRead .read ∨ i = .reserved1c .read)
      (e : t = readReg v s)
  | ignored (v : Word)
      (hi : i = .start v ∨ i = .statusWrite v ∨ i = .bufBaseAccess (.write v) ∨ i = .bufLenAccess (.write v) ∨
        i = .countRead (.write v) ∨ i = .seqRead (.write v) ∨ i = .crcRead (.write v) ∨ i = .reserved1c (.write v))
      (e : t = s)
  | bufBase (v : Word) (hi : i = .bufBaseAccess (.write v)) (h : s.busy = false)
      (e : t = { s with bufBase := addressBits s.cfg.aw v })
  | bufLen (v : Word) (hi : i = .bufLenAccess (.write v)) (h : s.busy = false)
      (e : t = { s with bufLen := v })
  | crcUpdate (acc : Crc16) (b : Byte) (hi : i = .crcUpdate acc b)
      (e : t = { s with crcOut := crc16Update acc b })

/-- An operation that reads a byte in `(RECEIVING, phase)` has that context. -/
theorem receiving_of_context {p : Position} {ph : Phase}
    (h : (!p.txv && p.state == .receiving && p.phase == ph) = true) :
    p.state = .receiving ∧ p.phase = ph ∧ p.txv = false := by
  simp only [Bool.and_eq_true, Bool.not_eq_true', beq_iff_eq] at h
  exact ⟨h.1.2, h.2, h.1.1⟩

theorem awaiting_of_context {p : Position} (h : (!p.txv && p.state == .awaitingStart) = true) :
    p.state = .awaitingStart ∧ p.txv = false := by
  simp only [Bool.and_eq_true, Bool.not_eq_true', beq_iff_eq] at h
  exact ⟨h.2, h.1⟩

theorem reading_of_context {p : Position} (h : (!p.txv && p.state == .receiving && p.phase != .commit) = true) :
    p.state = .receiving ∧ p.phase ≠ .commit ∧ p.txv = false := by
  simp only [Bool.and_eq_true, Bool.not_eq_true', beq_iff_eq, bne_iff_ne] at h
  exact ⟨h.1.2, h.2, h.1.1⟩

/-- An unrecognised control byte, as an effect. -/
theorem Effect.ofUnrecognised {s t : State} {i : Instr} {b : Byte}
    (hi : i = .otherCtrl b ∨ (i = .nakRx ∧ b = byteNAK) ∨ (i = .ackRx ∧ b = byteACK) ∨ (i = .stxRx ∧ b = byteSTX) ∨
        (i = .cRx ∧ b = byteC))
    (h : s.state = .receiving ∧ s.phase = .ctrl ∧ s.txv = false)
    (e : Host.Outcome.next (unrecognisedCtrl (recordCtrl b s)) = (.next t : Answer)) : Effect i s t := by
  cases e
  refine .unrecognised b hi h ?_
  rcases unrecognisedCtrl_cases (recordCtrl b s) with ⟨-, h⟩ | ⟨-, h⟩
  · exact .inl h
  · exact .inr h

/-- Everything an operation that answers a next state can have done. -/
theorem exec_effect {i : Instr} {s t : State} (h : exec i s = .next t) : Effect i s t := by
  cases i
  case soh =>
    obtain ⟨-, hc, h⟩ := guarded_next h
    cases h
    exact .soh rfl (receiving_of_context hc) rfl
  case eot =>
    obtain ⟨-, hc, h⟩ := guarded_next h
    cases h
    exact .eot rfl (receiving_of_context hc) rfl
  case canRx =>
    obtain ⟨-, hc, h⟩ := guarded_next h
    cases h
    exact .canRx rfl (receiving_of_context hc) rfl
  case escRx =>
    obtain ⟨-, hc, h⟩ := guarded_next h
    cases h
    exact .escRx rfl (receiving_of_context hc) rfl
  case otherCtrl b =>
    obtain ⟨-, hc, h⟩ := guarded_next h
    simp only [Instr.inContext, Bool.and_eq_true] at hc
    exact .ofUnrecognised (.inl rfl) (receiving_of_context (by simpa using hc.1.1.1.1)) h
  case nakRx =>
    obtain ⟨-, hc, h⟩ := guarded_next h
    exact .ofUnrecognised (by simp) (receiving_of_context hc) h
  case ackRx =>
    obtain ⟨-, hc, h⟩ := guarded_next h
    exact .ofUnrecognised (by simp) (receiving_of_context hc) h
  case stxRx =>
    obtain ⟨-, hc, h⟩ := guarded_next h
    exact .ofUnrecognised (by simp) (receiving_of_context hc) h
  case cRx =>
    obtain ⟨-, hc, h⟩ := guarded_next h
    exact .ofUnrecognised (by simp) (receiving_of_context hc) h
  case handshakeReply b =>
    obtain ⟨-, hc, h⟩ := guarded_next h
    cases h
    exact .handshakeReply b rfl (awaiting_of_context hc) rfl
  case seq b =>
    obtain ⟨-, hc, h⟩ := guarded_next h
    cases h
    exact .seq b rfl (receiving_of_context hc) rfl
  case seqc b =>
    obtain ⟨-, hc, h⟩ := guarded_next h
    cases h
    exact .seqc b rfl (receiving_of_context hc) rfl
  case data b =>
    obtain ⟨-, hc, h⟩ := guarded_next h
    cases h
    have hc' := (Bool.and_eq_true _ _).mp hc
    exact .data b rfl (receiving_of_context hc'.1) (by simpa [BitVec.ult, State.position] using hc'.2) rfl
  case crch b =>
    obtain ⟨-, hc, h⟩ := guarded_next h
    cases h
    exact .crch b rfl (receiving_of_context hc) rfl
  case crcl b =>
    obtain ⟨-, hc, h⟩ := guarded_next h
    rcases validateFrame_next h with ⟨h1, h2, h3, h4, rfl⟩ | ⟨c, rfl⟩
    · exact .accepted _ (.inl ⟨b, rfl, rfl⟩) (receiving_of_context hc) (fun _ => ⟨h1, h2, h3⟩) h4 rfl
    · exact .rejected _ c (.inl ⟨b, rfl, rfl⟩) (receiving_of_context hc) rfl
  case validate =>
    obtain ⟨-, hc, h⟩ := guarded_next h
    rcases validateFrame_next h with ⟨h1, h2, h3, h4, rfl⟩ | ⟨c, rfl⟩
    · exact .accepted s.rxCrc (by simp) (receiving_of_context hc) (fun _ => ⟨h1, h2, h3⟩) h4 rfl
    · exact .rejected s.rxCrc c (by simp) (receiving_of_context hc) rfl
  case reject cause =>
    obtain ⟨-, hc, h⟩ := guarded_next h
    cases h
    exact .rejected s.rxCrc cause (by simp) (receiving_of_context hc) rfl
  case accept =>
    obtain ⟨-, hc, h⟩ := guarded_next h
    rcases acceptFrame_cases s with ⟨-, e⟩ | ⟨hl, e⟩
    · rw [e] at h
      cases h
    · rw [e] at h
      cases h
      exact .accepted s.rxCrc (by simp) (receiving_of_context hc) (by simp) hl rfl
  case commitStep =>
    obtain ⟨-, hc, h⟩ := guarded_next h
    cases h
    exact .commitStep rfl hc rfl
  case commitEnd =>
    obtain ⟨-, hc, h⟩ := guarded_next h
    cases h
    simp only [Instr.inContext, State.position, Bool.and_eq_true, beq_iff_eq] at hc
    exact .commitEnd rfl ⟨hc.1.1, hc.1.2, hc.2⟩ rfl
  case txC =>
    obtain ⟨-, hc, h⟩ := guarded_next h
    cases h
    have hp := awaiting_of_context hc
    exact .emits _ (by simp) (.inl rfl) ⟨.inl hp.1, hp.2⟩ rfl
  case txAckFrame =>
    obtain ⟨-, hc, h⟩ := guarded_next h
    cases h
    have hp := receiving_of_context hc
    exact .emits _ (by simp) (.inr (.inl rfl)) ⟨.inr hp.1, hp.2.2⟩ rfl
  case txAckEot =>
    obtain ⟨-, hc, h⟩ := guarded_next h
    cases h
    have hp := receiving_of_context hc
    exact .emits _ (by simp) (.inr (.inl rfl)) ⟨.inr hp.1, hp.2.2⟩ rfl
  case txCan =>
    obtain ⟨-, hc, h⟩ := guarded_next h
    cases h
    have hp := receiving_of_context hc
    exact .emits _ (by simp) (.inr (.inr rfl)) ⟨.inr hp.1, hp.2.2⟩ rfl
  case pollTimeout =>
    obtain ⟨-, hc, h⟩ := guarded_next h
    cases h
    exact .pollTimeout rfl (awaiting_of_context hc) rfl
  case rxTimeout =>
    obtain ⟨-, hc, h⟩ := guarded_next h
    cases h
    exact .rxTimeout rfl (reading_of_context hc) rfl
  case rxErrorAwait =>
    obtain ⟨-, hc, h⟩ := guarded_next h
    cases h
    exact .rxErrorAwait rfl (awaiting_of_context hc) rfl
  case rxError =>
    obtain ⟨-, hc, h⟩ := guarded_next h
    cases h
    exact .rxError rfl (reading_of_context hc) rfl
  case txTake =>
    obtain ⟨-, hc, h⟩ := guarded_next h
    cases h
    exact .txTake rfl hc rfl
  case reset =>
    obtain ⟨-, -, h⟩ := guarded_next h
    cases h
    exact .reset rfl rfl
  case start v =>
    obtain ⟨-, -, h⟩ := guarded_next h
    split at h
    · cases h
      exact .ignored v (.inl rfl) rfl
    · rename_i hv
      simp only [Bool.or_eq_true, Bool.not_eq_true', not_or, Bool.not_eq_false, Bool.not_eq_true] at hv
      obtain ⟨hr, hd, rfl⟩ := startTransfer_next h
      exact .opened v rfl hv.1 hv.2 hr hd rfl
  case ctrlRead =>
    obtain ⟨-, -, h⟩ := guarded_next h
    cases h
    exact .regRead _ (by simp) rfl
  case statusRead =>
    obtain ⟨-, -, h⟩ := guarded_next h
    cases h
    exact .regRead _ (by simp) rfl
  case statusWrite v =>
    obtain ⟨-, -, h⟩ := guarded_next h
    cases h
    exact .ignored v (by simp) rfl
  case bufBaseAccess a =>
    obtain ⟨-, -, h'⟩ := guarded_next h
    clear h
    cases a with
    | read =>
      cases h'
      exact .regRead _ (by simp) rfl
    | write v =>
      cases h'
      split
      · exact .ignored v (by simp) rfl
      · exact .bufBase v rfl (by simpa using ‹¬ s.busy = true›) rfl
  case bufLenAccess a =>
    obtain ⟨-, -, h'⟩ := guarded_next h
    clear h
    cases a with
    | read =>
      cases h'
      exact .regRead _ (by simp) rfl
    | write v =>
      cases h'
      split
      · exact .ignored v (by simp) rfl
      · exact .bufLen v rfl (by simpa using ‹¬ s.busy = true›) rfl
  case countRead a =>
    obtain ⟨-, -, h'⟩ := guarded_next h
    clear h
    cases a with
    | read =>
      cases h'
      exact .regRead _ (by simp) rfl
    | write v =>
      cases h'
      exact .ignored v (by simp) rfl
  case seqRead a =>
    obtain ⟨-, -, h'⟩ := guarded_next h
    clear h
    cases a with
    | read =>
      cases h'
      exact .regRead _ (by simp) rfl
    | write v =>
      cases h'
      exact .ignored v (by simp) rfl
  case crcRead a =>
    obtain ⟨-, -, h'⟩ := guarded_next h
    clear h
    cases a with
    | read =>
      cases h'
      exact .regRead _ (by simp) rfl
    | write v =>
      cases h'
      exact .ignored v (by simp) rfl
  case reserved1c a =>
    obtain ⟨-, -, h'⟩ := guarded_next h
    clear h
    cases a with
    | read =>
      cases h'
      exact .regRead _ (by simp) rfl
    | write v =>
      cases h'
      exact .ignored v (by simp) rfl
  case crcUpdate acc b =>
    obtain ⟨-, -, h⟩ := guarded_next h
    cases h
    exact .crcUpdate acc b rfl rfl

end Sys2Proof.Machine
end

