-- ==== Sys2Proof/Laws/PerInstr.lean ====
section
/-! SUPPORT. Statements made for each operation as syntax: what it means that the decoder answers it. -/

namespace Sys2Proof.Laws.DecodedBy

/-- Wherever the decoder answers the operation, the operation is well-formed, the position is in its context, and the
event is its encoding (30_encoding.md R91). -/
def Statement (i : Instr) : Prop :=
  ∀ p e, decode p e = .ok i → encode i = some e ∧ i.wf = true ∧ i.inContext p = true

theorem soh : Statement .soh := fun _ _ h => decode_sound h
theorem eot : Statement .eot := fun _ _ h => decode_sound h
theorem canRx : Statement .canRx := fun _ _ h => decode_sound h
theorem escRx : Statement .escRx := fun _ _ h => decode_sound h
theorem otherCtrl (b : Byte) : Statement (.otherCtrl b) := fun _ _ h => decode_sound h
theorem nakRx : Statement .nakRx := fun _ _ h => decode_sound h
theorem ackRx : Statement .ackRx := fun _ _ h => decode_sound h
theorem stxRx : Statement .stxRx := fun _ _ h => decode_sound h
theorem cRx : Statement .cRx := fun _ _ h => decode_sound h
theorem handshakeReply (b : Byte) : Statement (.handshakeReply b) := fun _ _ h => decode_sound h
theorem seq (b : Byte) : Statement (.seq b) := fun _ _ h => decode_sound h
theorem seqc (b : Byte) : Statement (.seqc b) := fun _ _ h => decode_sound h
theorem data (b : Byte) : Statement (.data b) := fun _ _ h => decode_sound h
theorem crch (b : Byte) : Statement (.crch b) := fun _ _ h => decode_sound h
theorem crcl (b : Byte) : Statement (.crcl b) := fun _ _ h => decode_sound h
theorem validate : Statement .validate := fun _ _ h => decode_sound h
theorem reject (cause : RejectCause) : Statement (.reject cause) := fun _ _ h => decode_sound h
theorem accept : Statement .accept := fun _ _ h => decode_sound h
theorem commitStep : Statement .commitStep := fun _ _ h => decode_sound h
theorem commitEnd : Statement .commitEnd := fun _ _ h => decode_sound h
theorem txC : Statement .txC := fun _ _ h => decode_sound h
theorem txAckFrame : Statement .txAckFrame := fun _ _ h => decode_sound h
theorem txAckEot : Statement .txAckEot := fun _ _ h => decode_sound h
theorem txCan : Statement .txCan := fun _ _ h => decode_sound h
theorem pollTimeout : Statement .pollTimeout := fun _ _ h => decode_sound h
theorem rxTimeout : Statement .rxTimeout := fun _ _ h => decode_sound h
theorem rxErrorAwait : Statement .rxErrorAwait := fun _ _ h => decode_sound h
theorem rxError : Statement .rxError := fun _ _ h => decode_sound h
theorem txTake : Statement .txTake := fun _ _ h => decode_sound h
theorem reset : Statement .reset := fun _ _ h => decode_sound h
theorem start (v : Word) : Statement (.start v) := fun _ _ h => decode_sound h
theorem ctrlRead : Statement .ctrlRead := fun _ _ h => decode_sound h
theorem statusRead : Statement .statusRead := fun _ _ h => decode_sound h
theorem statusWrite (v : Word) : Statement (.statusWrite v) := fun _ _ h => decode_sound h
theorem bufBaseAccess (a : RegAccess) : Statement (.bufBaseAccess a) := fun _ _ h => decode_sound h
theorem bufLenAccess (a : RegAccess) : Statement (.bufLenAccess a) := fun _ _ h => decode_sound h
theorem countRead (a : RegAccess) : Statement (.countRead a) := fun _ _ h => decode_sound h
theorem seqRead (a : RegAccess) : Statement (.seqRead a) := fun _ _ h => decode_sound h
theorem crcRead (a : RegAccess) : Statement (.crcRead a) := fun _ _ h => decode_sound h
theorem reserved1c (a : RegAccess) : Statement (.reserved1c a) := fun _ _ h => decode_sound h
theorem crcUpdate (acc : Crc16) (b : Byte) : Statement (.crcUpdate acc b) := fun _ _ h => decode_sound h

end Sys2Proof.Laws.DecodedBy
end

