-- ==== Sys2Proof/Laws/Step.lean ====
section
/-! SUPPORT. What a step can do, said once: it runs one operation at the state from which an event has been taken, or it
is a host access to memory, or a silent clock cycle. -/

namespace Sys2Proof.Machine

/-- The event picked is one of the list, it can occur, and the rest keep their order. -/
theorem pick_some {p : Position} {es rest : List Event} {e : Event} (h : pick p es = some (e, rest)) :
    occurs p e = true ∧ ∃ before after, es = before ++ e :: after ∧ rest = before ++ after ∧
      ∀ x ∈ before, occurs p x = false := by
  induction es generalizing e rest with
  | nil => cases h
  | cons x xs ih =>
    unfold pick at h
    split at h
    · rename_i hx
      cases h
      exact ⟨hx, [], xs, rfl, rfl, by simp⟩
    · rename_i hx
      split at h
      · cases h
      · rename_i e' rest' hp
        cases h
        obtain ⟨ho, before, after, h1, h2, h3⟩ := ih hp
        refine ⟨ho, x :: before, after, by simp [h1], by simp [h2], ?_⟩
        intro y hy
        rcases List.mem_cons.1 hy with rfl | hy
        · simpa using hx
        · exact h3 y hy

/-- An event at the head of the list that can occur is the one picked. -/
theorem pick_head {p : Position} {e : Event} {es : List Event} (h : occurs p e = true) :
    pick p (e :: es) = some (e, es) := by
  simp [pick, h]

/-- What the decoder answers can occur. -/
theorem occurs_of_decode {p : Position} {e : Event} {i : Instr} (h : decode p e = .ok i) : occurs p e = true := by
  simp [occurs, h]

/-- Nothing is picked only where no event of the list can occur. -/
theorem pick_none {p : Position} {es : List Event} (h : pick p es = none) : ∀ e ∈ es, occurs p e = false := by
  induction es with
  | nil => simp
  | cons x xs ih =>
    unfold pick at h
    split at h
    · cases h
    · rename_i hx
      split at h
      · rename_i hp
        intro y hy
        rcases List.mem_cons.1 hy with rfl | hy
        · simpa using hx
        · exact ih hp y hy
      · cases h

/-- Nothing is picked where no event of the list can occur. -/
theorem pick_eq_none {p : Position} {es : List Event} (h : ∀ e ∈ es, occurs p e = false) : pick p es = none := by
  induction es with
  | nil => rfl
  | cons x xs ih => simp [pick, h x (by simp), ih fun e he => h e (by simp [he])]

/-- The event picked stands behind those that cannot occur. -/
theorem pick_append {p : Position} {waits rest : List Event} {e : Event} (h : ∀ x ∈ waits, occurs p x = false)
    (he : occurs p e = true) : pick p (waits ++ e :: rest) = some (e, waits ++ rest) := by
  induction waits with
  | nil => exact pick_head he
  | cons x xs ih => simp [pick, h x (by simp), ih fun y hy => h y (by simp [hy])]

/-- Everything a silent clock cycle can be. -/
theorem silentCycle_cases (s : State) :
    (s.position.waiting = true ∧ s.state = .awaitingStart ∧ silentCycle s = .run .pollTimeout (timerExpired s)) ∨
    (s.position.waiting = true ∧ s.state = .receiving ∧ silentCycle s = .run .rxTimeout (timerExpired s)) ∨
    (s.position.waiting = true ∧ silentCycle s = .answer (.next { s with tmr := s.tmr - 1 })) ∨
    (s.position.waiting = false ∧ silentCycle s = .answer (.next s)) := by
  unfold silentCycle
  split
  · rename_i hw
    split
    · split
      · exact .inl ⟨hw, ‹_›, rfl⟩
      · rename_i ha
        obtain ⟨-, h | h⟩ := (Position.waiting_iff _).1 hw
        · exact absurd h ha
        · exact .inr (.inl ⟨hw, h.1, rfl⟩)
    · exact .inr (.inr (.inl ⟨hw, rfl⟩))
  · exact .inr (.inr (.inr ⟨Bool.eq_false_iff.mpr ‹_›, rfl⟩))

theorem fetchEvent_ok {e : Event} {s : State} {i : Instr} (h : decode s.position e = .ok i) :
    fetchEvent e s = .run i s := by
  simp only [fetchEvent, h]

/-- An event that selects no operation: a refusal, a host access to memory, a silent cycle, or nothing. -/
theorem fetchEvent_error {e : Event} {s : State} {r : Reject} (h : decode s.position e = .error r) :
    fetchEvent e s = .answer (.refused .subwordAccess) ∨
    (∃ addr, e = .memRead addr ∧ fetchEvent e s = .answer (hostMemRead addr s)) ∨
    (∃ addr v, e = .memWrite addr v ∧ fetchEvent e s = .answer (hostMemWrite addr v s)) ∨
    (e = .idle ∧ fetchEvent e s = silentCycle s) ∨
    fetchEvent e s = .answer (.next s) := by
  by_cases hr : r = .subwordAccess
  · exact .inl (by simp only [fetchEvent, h, hr, if_true])
  · have hf : fetchEvent e s = fetchOther e s := by simp only [fetchEvent, h, hr, if_false]
    rw [hf]
    right
    cases e with
    | memRead addr => exact .inl ⟨addr, rfl, rfl⟩
    | memWrite addr v => exact .inr (.inl ⟨addr, v, rfl, rfl⟩)
    | idle => exact .inr (.inr (.inl ⟨rfl, rfl⟩))
    | _ => exact .inr (.inr (.inr rfl))

/-- Everything an event that occurs can be fetched as. -/
theorem fetchEvent_cases (e : Event) (s : State) :
    (∃ i, i.inContext s.position = true ∧ encode i = some e ∧ fetchEvent e s = .run i s) ∨
    fetchEvent e s = .answer (.refused .subwordAccess) ∨
    (∃ addr, e = .memRead addr ∧ fetchEvent e s = .answer (hostMemRead addr s)) ∨
    (∃ addr v, e = .memWrite addr v ∧ fetchEvent e s = .answer (hostMemWrite addr v s)) ∨
    (e = .idle ∧ fetchEvent e s = silentCycle s) ∨
    fetchEvent e s = .answer (.next s) := by
  cases hd : decode s.position e with
  | ok i => exact .inl ⟨i, (decode_sound hd).2.2, (decode_sound hd).1, fetchEvent_ok hd⟩
  | error r => exact .inr (fetchEvent_error hd)

/-- The environment has no choice exactly where it may choose none of its liberties. -/
theorem choice_none {s : State} : s.choice = none ↔ ∀ e ∈ s.liberties, s.allows e = false := by
  rw [State.choice]
  split
  · rename_i h
    simpa [List.filter_eq_nil_iff] using h
  · rename_i e es h
    have he : e ∈ s.liberties.filter s.allows := by simp [h]
    simp only [reduceCtorEq, false_iff, not_forall]
    exact ⟨e, (List.mem_filter.1 he).1, by simp [(List.mem_filter.1 he).2]⟩

/-- What the environment chooses is one of its liberties that it may choose. -/
theorem choice_some {s : State} {e : Event} (h : s.choice = some e) : e ∈ s.liberties ∧ s.allows e = true := by
  rw [State.choice] at h
  split at h
  · cases h
  · rename_i x xs hf
    have hlt : Config.freeChoice s.draws % (xs.length + 1) < (x :: xs).length := Nat.mod_lt _ (Nat.succ_pos _)
    have he : e ∈ s.liberties.filter s.allows := by
      cases h
      rw [hf, List.getD_eq_getElem _ _ hlt]
      exact List.getElem_mem _
    exact List.mem_filter.1 he

/-- With one liberty to choose, the choice is that one. -/
theorem choice_singleton {s : State} {e : Event} (h : s.liberties.filter s.allows = [e]) : s.choice = some e := by
  simp [State.choice, h, Nat.mod_one]

/-- Where the environment may choose a liberty, it does. -/
theorem exists_choice {s : State} (h : ∃ x ∈ s.liberties, s.allows x = true) : ∃ e, s.choice = some e := by
  cases hc : s.choice with
  | some e => exact ⟨e, rfl⟩
  | none =>
    obtain ⟨x, hx, ho⟩ := h
    simp [choice_none.1 hc x hx] at ho

/-- What the environment may choose can occur. -/
theorem occurs_of_allows {s : State} {e : Event} (h : s.allows e = true) : occurs s.position e = true :=
  ((Bool.and_eq_true _ _).mp h).1

/-- Any event that can occur and is no host access may be chosen. -/
theorem allows_of_occurs {s : State} {e : Event} (h : occurs s.position e = true) (he : isHostAccess e = false) :
    s.allows e = true := by
  simp [State.allows, h, he]

/-- A host access may be chosen, but in a wait in RECEIVING that has no patience left. -/
theorem allows_host {s : State} {e : Event} (h : occurs s.position e = true) :
    s.allows e = false ↔ isHostAccess e = true ∧ s.position.reading = true ∧ s.patience = 0 := by
  simp [State.allows, h, and_assoc]

/-- The state from which an operation runs: an event has been taken, the timer may have counted or expired, a free choice
may have been drawn, and the patience is another. -/
def State.taken (s : State) (es : List Event) (n d p : Nat) : State :=
  { s with events := es, tmr := n, draws := d, patience := p }

theorem State.taken_position (s : State) (es : List Event) (n d p : Nat) :
    (s.taken es n d p).position = s.position := rfl

theorem fetch_event {s : State} {e : Event} {es : List Event} (hc : s.cfg.Admitted)
    (hp : pick s.position s.events = some (e, es)) :
    fetch s = fetchEvent e { s with events := es, patience := s.patienceAfter e } := by
  simp only [fetch, (configRefusal_none _).2 hc, hp]

theorem fetch_liberty {s : State} {e : Event} (hc : s.cfg.Admitted) (hp : pick s.position s.events = none)
    (he : s.choice = some e) :
    fetch s = fetchEvent e { s with draws := s.draws + 1, patience := s.patienceChoosing e } := by
  simp only [fetch, (configRefusal_none _).2 hc, hp, he]

theorem fetch_own {s : State} (hc : s.cfg.Admitted) (hp : pick s.position s.events = none) (he : s.choice = none) :
    fetch s = fetchOwn s := by
  simp only [fetch, (configRefusal_none _).2 hc, hp, he]

/-- Everything the next step can be, where the parameters are admitted. -/
theorem fetch_cases {s : State} (hc : s.cfg.Admitted) :
    ∃ es n d p, n ≤ s.tmr ∧ (d = s.draws ∨ d = s.draws + 1) ∧ (
      (∃ i e, i.inContext s.position = true ∧ encode i = some e ∧ (i = .commitStep ∨ e ∈ s.moves) ∧
        fetch s = .run i (s.taken es n d p)) ∨
      fetch s = .answer (.refused .subwordAccess) ∨
      (∃ addr, .memRead addr ∈ s.moves ∧ fetch s = .answer (hostMemRead addr (s.taken es n d p))) ∨
      (∃ addr v, .memWrite addr v ∈ s.moves ∧ fetch s = .answer (hostMemWrite addr v (s.taken es n d p))) ∨
      fetch s = silentCycle (s.taken es n d p) ∨
      fetch s = .answer (.next (s.taken es n d p))) := by
  have event : ∀ (e : Event) (u : State), e ∈ s.moves → u.position = s.position → fetch s = fetchEvent e u →
      (∃ i e, i.inContext s.position = true ∧ encode i = some e ∧ (i = .commitStep ∨ e ∈ s.moves) ∧
        fetch s = .run i u) ∨
      fetch s = .answer (.refused .subwordAccess) ∨
      (∃ addr, .memRead addr ∈ s.moves ∧ fetch s = .answer (hostMemRead addr u)) ∨
      (∃ addr v, .memWrite addr v ∈ s.moves ∧ fetch s = .answer (hostMemWrite addr v u)) ∨
      fetch s = silentCycle u ∨ fetch s = .answer (.next u) := by
    intro e u hm hu hf
    rw [hf]
    rcases fetchEvent_cases e u with ⟨i, hi, he, h⟩ | h | ⟨a, rfl, h⟩ | ⟨a, v, rfl, h⟩ | ⟨-, h⟩ | h
    · exact .inl ⟨i, e, hu ▸ hi, he, .inr hm, h⟩
    · exact .inr (.inl h)
    · exact .inr (.inr (.inl ⟨a, hm, h⟩))
    · exact .inr (.inr (.inr (.inl ⟨a, v, hm, h⟩)))
    · exact .inr (.inr (.inr (.inr (.inl h))))
    · exact .inr (.inr (.inr (.inr (.inr h))))
  cases hp : pick s.position s.events with
  | some q =>
    obtain ⟨e, es⟩ := q
    obtain ⟨-, before, after, he, -, -⟩ := pick_some hp
    exact ⟨es, s.tmr, s.draws, s.patienceAfter e, le_refl _, .inl rfl,
      event e (s.taken es s.tmr s.draws (s.patienceAfter e)) (by simp [State.moves, he]) rfl (fetch_event hc hp)⟩
  | none =>
    cases hl : s.choice with
    | some e =>
      exact ⟨s.events, s.tmr, s.draws + 1, s.patienceChoosing e, le_refl _, .inr rfl,
        event e (s.taken s.events s.tmr (s.draws + 1) (s.patienceChoosing e))
          (List.mem_append_right _ (choice_some hl).1) rfl (fetch_liberty hc hp hl)⟩
    | none =>
      have hf := fetch_own hc hp hl
      refine ⟨s.events, s.tmr, s.draws, s.patience, le_refl _, .inl rfl, ?_⟩
      by_cases hcom : s.position.committing = true
      · exact .inl ⟨.commitStep, .commitStep, hcom, rfl, .inl rfl, hf.trans (by simp only [fetchOwn, hcom, if_true]; rfl)⟩
      · exact .inr (.inr (.inr (.inr (.inl (hf.trans (by
          simp only [fetchOwn, hcom, Bool.false_eq_true, if_false]; rfl))))))

theorem step_of_run {s u : State} {i : Instr} (h : fetch s = .run i u) : step s = exec i u := by
  simp only [step, h]

theorem step_of_answer {s : State} {o : Answer} (h : fetch s = .answer o) : step s = o := by
  simp only [step, h]

/-- Everything a step that answers a next state can be: an operation run at a state that differs from this one in its
pending events, its timer, its draws and its patience alone and selected by an event, a host access to memory, or a cycle in which only
those change. -/
theorem step_cases {s t : State} (h : step s = .next t) :
    s.cfg.Admitted ∧ ∃ es n d p, n ≤ s.tmr ∧ (d = s.draws ∨ d = s.draws + 1) ∧ (
      (∃ i e, i.inContext s.position = true ∧ encode i = some e ∧
        (e ∈ s.moves ∨ i = .commitStep ∨ i = .pollTimeout ∨ i = .rxTimeout) ∧ exec i (s.taken es n d p) = .next t) ∨
      (∃ addr, .memRead addr ∈ s.moves ∧ hostMemRead addr (s.taken es n d p) = .next t) ∨
      (∃ addr v, .memWrite addr v ∈ s.moves ∧ hostMemWrite addr v (s.taken es n d p) = .next t) ∨
      t = s.taken es n d p) := by
  have hc : s.cfg.Admitted := by
    cases hc : configRefusal s.cfg with
    | some r =>
      rw [step_of_answer (o := .refused r) (by simp only [fetch, hc])] at h
      cases h
    | none => exact (configRefusal_none _).1 hc
  refine ⟨hc, ?_⟩
  obtain ⟨es, n, d, p, hn, hd, ⟨i, e, hi, he, hm, hf⟩ | hf | ⟨addr, hm, hf⟩ | ⟨addr, v, hm, hf⟩ | hf | hf⟩ := fetch_cases hc
  · rw [step_of_run hf] at h
    exact ⟨es, n, d, p, hn, hd, .inl ⟨i, e, hi, he, hm.elim (fun q => .inr (.inl q)) .inl, h⟩⟩
  · rw [step_of_answer hf] at h
    cases h
  · rw [step_of_answer hf] at h
    exact ⟨es, n, d, p, hn, hd, .inr (.inl ⟨addr, hm, h⟩)⟩
  · rw [step_of_answer hf] at h
    exact ⟨es, n, d, p, hn, hd, .inr (.inr (.inl ⟨addr, v, hm, h⟩))⟩
  · rcases silentCycle_cases (s.taken es n d p) with ⟨hw, ha, hs⟩ | ⟨hw, ha, hs⟩ | ⟨-, hs⟩ | ⟨-, hs⟩
    all_goals rw [hs] at hf
    · rw [step_of_run hf] at h
      refine ⟨es, 0, d, p, Nat.zero_le _, hd, .inl ⟨.pollTimeout, .timeout, ?_, rfl, by simp, h⟩⟩
      have ht := ((Position.waiting_iff _).1 hw).1
      simp only [State.position, State.taken] at ht ha
      simp [Instr.inContext, State.position, ht, ha]
    · rw [step_of_run hf] at h
      refine ⟨es, 0, d, p, Nat.zero_le _, hd, .inl ⟨.rxTimeout, .timeout, ?_, rfl, by simp, h⟩⟩
      obtain ⟨ht, hp⟩ := (Position.waiting_iff _).1 hw
      simp only [State.position, State.taken] at ht hp ha
      simp only [ha, reduceCtorEq, false_or, true_and] at hp
      simp [Instr.inContext, State.position, ht, ha, hp]
    · rw [step_of_answer hf] at h
      cases h
      exact ⟨es, n - 1, d, p, le_trans (Nat.sub_le _ _) hn, hd, .inr (.inr (.inr rfl))⟩
    · rw [step_of_answer hf] at h
      cases h
      exact ⟨es, n, d, p, hn, hd, .inr (.inr (.inr rfl))⟩
  · rw [step_of_answer hf] at h
    cases h
    exact ⟨es, n, d, p, hn, hd, .inr (.inr (.inr rfl))⟩

/-! ## Runs -/

theorem run_zero (s : State) : run 0 s = .next s := rfl

theorem run_succ_of_next {s t : State} {k : Nat} (h : step s = .next t) : run (k + 1) s = run k t := by
  simp only [run, h]

/-- A run one step longer, by its last step. -/
theorem run_succ {s t : State} {k : Nat} (h : run k s = .next t) : run (k + 1) s = step t := by
  induction k generalizing s with
  | zero =>
    cases h
    simp only [run]
    split <;> simp only [*]
  | succ k ih =>
    cases hs : step s with
    | next u =>
      rw [run_succ_of_next hs] at h ⊢
      exact ih h
    | fault r => simp [run, hs] at h
    | refused r => simp [run, hs] at h

/-! ## Steps the block takes by itself -/

/-- Where the environment makes no move, the next step is the block's own (log 2). -/
theorem fetch_quiet {s : State} (hc : s.cfg.Admitted) (hq : s.quiet) : fetch s = fetchOwn s :=
  fetch_own hc (by simp [hq.1, pick]) (choice_none.2 (by simp [hq.2]))

/-- Left to itself, a block that has a frame to commit takes a CommitStep (log 2). -/
theorem step_commit {s : State} (hc : s.cfg.Admitted) (hq : s.quiet) (hp : s.position.committing = true) :
    step s = .next (commitByte s) := by
  have hf : fetch s = .run .commitStep s := by simp only [fetch_quiet hc hq, fetchOwn, hp, if_true]
  rw [step_of_run hf]
  exact guarded_pass (i := .commitStep) hc hp _

/-- Left to itself with nothing to commit, the machine takes a silent clock cycle (log 2). -/
theorem fetch_silent {s : State} (hc : s.cfg.Admitted) (hq : s.quiet) (hp : s.position.committing = false) :
    fetch s = silentCycle s := by
  simp only [fetch_quiet hc hq, fetchOwn, hp, Bool.false_eq_true, if_false]

end Sys2Proof.Machine
end

