-- ==== Sys2Proof/Machine/Script.lean ====
section
/-! DEFINITION. The pseudo-events of the trace notation (30_encoding.md R92) and the frame they spell (R82). -/

namespace Sys2Proof.Machine

/-- `start <base>, <len>` (R92). -/
def scriptStart (base len : Word) : List Event :=
  [.hostWrite 0x08 .word base, .hostWrite 0x0C .word len, .hostWrite 0x00 .word 1]

/-- The bytes of a frame on the wire (R82): SOH, the two sequence bytes, the payload, the trailer. -/
def frameBytes (seq comp : Byte) (payload : List Byte) (hi lo : Byte) : List Byte :=
  [byteSOH, seq, comp] ++ payload ++ [hi, lo]

/-- `frame <s>, <t>, <d0..d127>, <h>, <l>` (R92). -/
def scriptFrame (seq comp : Byte) (payload : List Byte) (hi lo : Byte) : List Event :=
  (frameBytes seq comp payload hi lo).map .rxByte

/-- `goodframe <n>, <d0..d127>` (R92): the complement and the big-endian CRC trailer (R84) are right. -/
def scriptGoodFrame (n : Byte) (payload : List Byte) : List Event :=
  let crc := crc16 crcInit payload
  scriptFrame n (~~~n) payload (crc.extractLsb' 8 8) (crc.extractLsb' 0 8)

/-- `fill(v)` (R92). -/
def scriptFill (v : Byte) : List Byte := List.replicate 128 v

/-- `commit*` (R92). -/
def scriptCommits : List Event := List.replicate 128 .commitStep

end Sys2Proof.Machine
end

