-- ==== Sys2Proof/Tests/Slice0.lean ====
section
/-! SUPPORT. Tests of the model, each of one step, with the values of 95_test_vectors.md (the section is named beside
each), and for every obligation with hypotheses a concrete state that meets them. -/

namespace Sys2Proof.Tests

open Sys2Proof Sys2Proof.Machine

/-! ## Well-formedness and decoding -/

theorem test_wf_otherCtrl_soh_refused : (Instr.otherCtrl 0x01).wf = false := by decide
theorem test_wf_otherCtrl_nak_refused : (Instr.otherCtrl 0x15).wf = false := by decide
theorem test_wf_otherCtrl_y : (Instr.otherCtrl 0x79).wf = true := by decide

/-- A position in RECEIVING. -/
def at_ (ph : Phase) (idx : Byte) : Position := ⟨.receiving, ph, idx, false⟩

/-- 30_encoding.md R80, R81, R86: the byte values written out. -/
theorem test_decode_ctrl8 :
    decode (at_ .ctrl 0) (.rxByte 0b00000001) = .ok .soh ∧
    decode (at_ .ctrl 0) (.rxByte 0b00000100) = .ok .eot ∧
    decode (at_ .ctrl 0) (.rxByte 0b00011000) = .ok .canRx ∧
    decode (at_ .ctrl 0) (.rxByte 0b00011011) = .ok .escRx ∧
    decode (at_ .ctrl 0) (.rxByte 0b00010101) = .ok .nakRx ∧
    decode (at_ .ctrl 0) (.rxByte 0b00000110) = .ok .ackRx ∧
    decode (at_ .ctrl 0) (.rxByte 0b00000010) = .ok .stxRx ∧
    decode (at_ .ctrl 0) (.rxByte 0b01000011) = .ok .cRx ∧
    decode (at_ .ctrl 0) (.rxByte 0b01111001) = .ok (.otherCtrl 0x79) ∧
    decode (at_ .ctrl 0) (.rxByte 0b11111111) = .ok (.otherCtrl 0xFF) := by decide

/-- 30_encoding.md R91: a received byte, by `(STATE, PHASE)`; a control value inside a frame is data (R86). -/
theorem test_decode_field8 :
    decode (at_ .seq 0) (.rxByte 0x01) = .ok (.seq 0x01) ∧
    decode (at_ .seqc 0) (.rxByte 0xFE) = .ok (.seqc 0xFE) ∧
    decode (at_ .data 127) (.rxByte 0x04) = .ok (.data 0x04) ∧
    decode (at_ .crch 128) (.rxByte 0x18) = .ok (.crch 0x18) ∧
    decode (at_ .crcl 128) (.rxByte 0x1B) = .ok (.crcl 0x1B) ∧
    decode ⟨.awaitingStart, .ctrl, 0, false⟩ (.rxByte 0x01) = .ok (.handshakeReply 0x01) := by decide

/-- 30_encoding.md R89, R91: errors, timeouts, the transmit handshake, the commit, the reset. -/
theorem test_decode_events :
    decode ⟨.awaitingStart, .ctrl, 0, false⟩ .timeout = .ok .pollTimeout ∧
    decode ⟨.awaitingStart, .ctrl, 0, false⟩ .rxErr = .ok .rxErrorAwait ∧
    decode (at_ .data 40) .timeout = .ok .rxTimeout ∧
    decode (at_ .crch 128) .rxErr = .ok .rxError ∧
    decode ⟨.done, .ctrl, 0, true⟩ .txTake = .ok .txTake ∧
    decode (at_ .commit 0) .commitStep = .ok .commitStep ∧
    decode (at_ .commit 5) .reset = .ok .reset := by decide

/-- 30_encoding.md R91, last row, and 42_transfer_fsm.md R184: events that are not enabled. -/
theorem test_decode_not_enabled :
    decode ⟨.idle, .ctrl, 0, false⟩ (.rxByte 0x01) = .error .noTransfer ∧
    decode ⟨.awaitingStart, .ctrl, 0, true⟩ (.rxByte 0x01) = .error .txPending ∧
    decode (at_ .commit 3) .timeout = .error .committing ∧
    decode ⟨.awaitingStart, .ctrl, 0, false⟩ .txTake = .error .nothingOffered ∧
    decode (at_ .data 3) .commitStep = .error .notCommitting := by decide

/-- 43_host_interface.md R210, R211: the eight words, and an access that is no aligned word. -/
theorem test_decode_reg32 :
    decode (at_ .ctrl 0) (.hostWrite 0b00000 .word 1) = .ok (.start 1) ∧
    decode (at_ .ctrl 0) (.hostRead 0b00000 .word) = .ok .ctrlRead ∧
    decode (at_ .ctrl 0) (.hostRead 0b00100 .word) = .ok .statusRead ∧
    decode (at_ .ctrl 0) (.hostWrite 0b00100 .word 7) = .ok (.statusWrite 7) ∧
    decode (at_ .ctrl 0) (.hostWrite 0b01000 .word 0x1234) = .ok (.bufBaseAccess (.write 0x1234)) ∧
    decode (at_ .ctrl 0) (.hostRead 0b01100 .word) = .ok (.bufLenAccess .read) ∧
    decode (at_ .ctrl 0) (.hostRead 0b10000 .word) = .ok (.countRead .read) ∧
    decode (at_ .ctrl 0) (.hostRead 0b10100 .word) = .ok (.seqRead .read) ∧
    decode (at_ .ctrl 0) (.hostRead 0b11000 .word) = .ok (.crcRead .read) ∧
    decode (at_ .ctrl 0) (.hostWrite 0b11100 .word 5) = .ok (.reserved1c (.write 5)) ∧
    decode (at_ .ctrl 0) (.hostRead 0b00100 .half) = .error .subwordAccess ∧
    decode (at_ .ctrl 0) (.hostRead 0b00110 .word) = .error .subwordAccess := by decide

/-- Log 19: words of spec/opcode_table.json. -/
theorem test_table_words :
    decodeTableWord 8 0x01 = some .soh ∧ decodeTableWord 8 0x02 = some .stxRx ∧
    decodeTableWord 32 0x14 = some (.seqRead .read) ∧ decodeTableWord 16 0x01 = none := by decide

/-! ## States -/

/-- After `hw 0x08, 0x20001000`, `hw 0x0C, 0x400` (95_test_vectors.md section 2). -/
def configured : State := { State.reset with bufBase := 0x20001000, bufLen := 0x400 }

/-- In the handshake, the `'C'` taken. -/
def awaitingReply : State := { configured with state := .awaitingStart, txStream := [0x43], tmr := 1 }

/-- Receiving, at a phase. -/
def receivingAt (ph : Phase) (idx : Byte) : State :=
  { awaitingReply with state := .receiving, phase := ph, idx := idx, lastCtrl := 0x01 }

/-- Receiving with the sequence bytes of a first frame read. -/
def inFrame (ph : Phase) (idx : Byte) (seq comp : Byte) (computed received : Crc16) : State :=
  { receivingAt ph idx with rxSeq := seq, rxSeqc := comp, calcCrc := computed, rxCrc := received }

/-- A 0xAA frame accepted, `k` bytes of it committed. -/
def committingAt (k : Byte) : State :=
  { inFrame .commit k 0x01 0xFE 0xB6CE 0xB6CE with pkt := Vector.replicate 128 0xAA }

/-- After a first frame, its ACK taken. -/
def afterFrame : State :=
  { inFrame .ctrl 0 0x01 0xFE 0xB6CE 0xB6CE with count := 0x80, expSeq := 0x02 }

/-- A field of an answer that is a next state. -/
def get {α : Type} (f : State → α) : Answer → Option α
  | .next s => some (f s)
  | _ => none

/-- The fault of an answer that is one. -/
def faultOf : Answer → Option Fault
  | .fault f => some f
  | _ => none

/-- The refusal of an answer that is one. -/
def refusalOf : Answer → Option Refusal
  | .refused r => some r
  | _ => none

/-- The words STATUS, SEQ and CRC (43_host_interface.md R214, R219, R220). -/
def words (s : State) : Word × Word × Word := (s.statusWord, s.seqWord, s.crcWord)

/-- `UNKNOWN_CTRL = ABORT`. -/
def withAbort (s : State) : State := { s with cfg := { s.cfg with unknownCtrl := .abort } }

/-! ## CRC engine (95_test_vectors.md 2.1) -/

theorem test_crcUpdate_0_01 :
    get State.crcOut (exec (.crcUpdate 0x0000 0x01) State.reset) = some 0x1021 := by decide
theorem test_crcUpdate_1234_56 :
    get State.crcOut (exec (.crcUpdate 0x1234 0x56) State.reset) = some 0x3C40 := by decide
theorem test_crc_table :
    crc16Update 0xFFFF 0x00 = 0xE1F0 ∧ crc16Update 0x8000 0x00 = 0x9188 ∧ crc16Update 0xFFFF 0xFF = 0xFF00 ∧
    crc16Update 0x1021 0x10 = 0x2100 ∧ crc16Update 0x14A0 0xAA = 0xE615 ∧ crc16Update 0 0x41 = 0x58E5 := by decide
set_option maxRecDepth 20000 in
theorem test_crc_fill_aa : crc16 0 (scriptFill 0xAA) = 0xB6CE := by decide +kernel
set_option maxRecDepth 20000 in
theorem test_crc_fill_ff : crc16 0 (scriptFill 0xFF) = 0xEDA9 := by decide +kernel

/-! ## Control bytes (2.2, 2.5) -/

theorem test_soh : get words (exec .soh { receivingAt .ctrl 0 with calcCrc := 0x1234 }) =
    some (0x00000092, 0x01000001, 0x00000000) := by decide
theorem test_eot : get words (exec .eot { afterFrame with lastCtrl := 0x79 }) =
    some (0x0000018B, 0x04FE0102, 0xB6CEB6CE) := by decide
theorem test_eot_byte : get (fun t => (t.txb, t.count)) (exec .eot afterFrame) = some (0x06, 0x80) := by decide
theorem test_canRx : get words (exec .canRx (receivingAt .ctrl 0)) = some (0x00000204, 0x18000001, 0) := by decide
theorem test_escRx : get words (exec .escRx (receivingAt .ctrl 0)) = some (0x00000304, 0x1B000001, 0) := by decide
theorem test_otherCtrl_discard :
    get words (exec (.otherCtrl 0x79) (receivingAt .ctrl 0)) = some (0x00000082, 0x79000001, 0) := by decide
theorem test_otherCtrl_abort :
    get words (exec (.otherCtrl 0x79) (withAbort (receivingAt .ctrl 0))) = some (0x00000904, 0x79000001, 0) := by
  decide
theorem test_nakRx_discard : get words (exec .nakRx (receivingAt .ctrl 0)) = some (0x00000082, 0x15000001, 0) := by
  decide
theorem test_nakRx_abort :
    get words (exec .nakRx (withAbort (receivingAt .ctrl 0))) = some (0x00000904, 0x15000001, 0) := by decide
theorem test_ackRx : get words (exec .ackRx (receivingAt .ctrl 0)) = some (0x00000082, 0x06000001, 0) := by decide
theorem test_stxRx : get words (exec .stxRx (receivingAt .ctrl 0)) = some (0x00000082, 0x02000001, 0) := by decide
theorem test_cRx : get words (exec .cRx (receivingAt .ctrl 0)) = some (0x00000082, 0x43000001, 0) := by decide
theorem test_handshakeReply_soh :
    get words (exec (.handshakeReply 0x01) awaitingReply) = some (0x00000092, 0x01000001, 0) := by decide
theorem test_handshakeReply_eot :
    get words (exec (.handshakeReply 0x04) awaitingReply) = some (0x0000018B, 0x04000001, 0) := by decide

/-! ## Frame bytes and validation (2.2, 2.3) -/

theorem test_seq : get words (exec (.seq 0x01) (receivingAt .seq 0)) = some (0x000000A2, 0x01000101, 0) := by decide
theorem test_seqc : get words (exec (.seqc 0xFE) (inFrame .seqc 0 0x01 0 0 0)) =
    some (0x000000B2, 0x01FE0101, 0) := by decide
theorem test_data_first : get words (exec (.data 0xAA) (inFrame .data 0 0x01 0xFE 0 0)) =
    some (0x000100B2, 0x01FE0101, 0x000014A0) := by decide
theorem test_data_last :
    get (fun t => (t.statusWord, t.pkt[127])) (exec (.data 0xAA) (inFrame .data 127 0x01 0xFE 0 0)) =
    some (0x008000C2, 0xAA) := by decide +kernel
theorem test_crch : get words (exec (.crch 0xB6) (inFrame .crch 128 0x01 0xFE 0xB6CE 0)) =
    some (0x008000D2, 0x01FE0101, 0xB600B6CE) := by decide
theorem test_crch_keeps_low :
    get (fun t => (t.phase, t.crcWord)) (exec (.crch 0xB6) (inFrame .crch 128 0x02 0xFD 0xB6CE 0xB6CE)) =
    some (.crcl, 0xB6CEB6CE) := by decide
theorem test_crcl_accepted : get words (exec (.crcl 0xCE) (inFrame .crcl 128 0x01 0xFE 0xB6CE 0xB600)) =
    some (0x000000E2, 0x01FE0101, 0xB6CEB6CE) := by decide
theorem test_crcl_badCrc : get words (exec (.crcl 0xCF) (inFrame .crcl 128 0x01 0xFE 0xB6CE 0xB600)) =
    some (0x0000068C, 0x01FE0101, 0xB6CFB6CE) := by decide
theorem test_validate_badSeqc : get words (exec .validate (inFrame .crcl 128 0x01 0xFF 0xB6CE 0xB6CE)) =
    some (0x0000088C, 0x01FF0101, 0xB6CEB6CE) := by decide
theorem test_validate_all_fail : get words (exec .validate (inFrame .crcl 128 0x02 0x02 0x0000 0x0001)) =
    some (0x0000068C, 0x01020201, 0x00010000) := by decide
theorem test_reject : get words (exec (.reject .badSeq) (inFrame .crcl 128 0x00 0xFF 0 0)) =
    some (0x0000078C, 0x01FF0001, 0) := by decide
theorem test_accept : get words (exec .accept { inFrame .crcl 128 0x01 0xFE 0xB6CE 0xB6CE with bufLen := 0x100 }) =
    some (0x000000E2, 0x01FE0101, 0xB6CEB6CE) := by decide
theorem test_accept_overrun :
    faultOf (exec .accept { inFrame .crcl 128 0x02 0xFD 0 0 with bufLen := 0x80, count := 0x80 }) =
    some .bufferOverrun := by decide +kernel

/-! ## Commit (2.2, 2.4) -/

theorem test_commitStep :
    get (fun t => (t.idx, Mem.read t.mem 0x20001085)) (exec .commitStep { committingAt 5 with count := 0x80 }) =
    some (6, some 0xAA) := by decide
theorem test_commitStep_last :
    get (fun t => (words t, t.count, t.txb, Mem.read t.mem 0x2000107F)) (exec .commitStep (committingAt 127)) =
    some ((0x0000008A, 0x01FE0102, 0xB6CEB6CE), 0x80, 0x06, some 0xAA) := by decide
theorem test_commitEnd_wraps :
    get (fun t => (t.count, t.expSeq, t.phase, t.txv))
      (exec .commitEnd { committingAt 128 with count := 0x7F80, expSeq := 0xFF }) =
    some (0x8000, 0x00, .ctrl, true) := by decide

/-! ## Transmit, timeouts, errors (2.3, 2.5, 2.6) -/

theorem test_txC : get (fun t => (t.statusWord, t.txb)) (exec .txC awaitingReply) = some (0x00000089, 0x43) := by
  decide
theorem test_txAckFrame : get (fun t => (t.txv, t.txb)) (exec .txAckFrame (receivingAt .ctrl 0)) =
    some (true, 0x06) := by decide
theorem test_txAckEot : get (fun t => (t.txv, t.txb)) (exec .txAckEot (receivingAt .ctrl 0)) =
    some (true, 0x06) := by decide
theorem test_txCan : get (fun t => (t.txv, t.txb)) (exec .txCan (receivingAt .crcl 128)) = some (true, 0x18) := by
  decide
theorem test_txTake_can :
    get (fun t => (t.statusWord, t.txStream)) (exec .txTake
      { configured with state := .aborted, result := .badCrc, txv := true, txb := 0x18, txStream := [0x43, 0x43, 0x43] }) =
    some (0x00000604, [0x43, 0x43, 0x43, 0x18]) := by decide
theorem test_txTake_loads_tByte :
    get State.tmr (exec .txTake { afterFrame with
      txv := true, txb := 0x06, tmr := 0, cfg := { State.resetConfig with tByte := 9 } }) = some 9 := by decide
theorem test_pollTimeout : get words (exec .pollTimeout awaitingReply) = some (0x00000089, 0x00000001, 0) := by decide
theorem test_rxTimeout :
    get (fun t => (t.statusWord, t.crcWord, t.txv)) (exec .rxTimeout (inFrame .data 40 0x01 0xFE 0x452A 0)) =
    some (0x00000404, 0x0000452A, false) := by decide
theorem test_rxError :
    get (fun t => (t.statusWord, t.count)) (exec .rxError { afterFrame with phase := .crcl, idx := 128 }) =
    some (0x00000504, 0x80) := by decide
theorem test_rxErrorAwait : get words (exec .rxErrorAwait awaitingReply) = some (0x00000504, 0x00000001, 0) := by
  decide

/-! ## Host interface (2.7) and reset (2.8) -/

theorem test_start : get (fun t => (words t, t.txb)) (exec (.start 1) configured) =
    some ((0x00000089, 0x00000001, 0), 0x43) := by decide
theorem test_start_wraps :
    faultOf (exec (.start 1) { State.reset with bufBase := 0xFFFFFF80, bufLen := 0x100 }) = some .regionWrap := by
  decide
theorem test_start_to_the_top :
    get State.statusWord (exec (.start 1) { State.reset with bufBase := 0xFFFFFF80, bufLen := 0x80 }) =
    some 0x00000089 := by decide
theorem test_ctrlRead : get State.rdata (exec .ctrlRead { State.reset with rdata := 5 }) = some 0 := by decide
theorem test_statusRead : get State.rdata (exec .statusRead (inFrame .data 40 0x01 0xFE 0x452A 0)) =
    some 0x002800B2 := by decide
theorem test_statusWrite : get words (exec (.statusWrite 0xFFFFFFFF) afterFrame) = some (words afterFrame) := by decide
theorem test_bufBase_write : get State.bufBase (exec (.bufBaseAccess (.write 0x20001000)) State.reset) =
    some 0x20001000 := by decide
theorem test_bufBase_busy : get State.bufBase (exec (.bufBaseAccess (.write 0x1234)) awaitingReply) =
    some 0x20001000 := by decide
theorem test_bufLen_busy : get State.bufLen (exec (.bufLenAccess (.write 5)) awaitingReply) = some 0x400 := by decide
theorem test_bufLen_read : get State.rdata (exec (.bufLenAccess .read) configured) = some 0x400 := by decide
theorem test_countRead : get State.rdata (exec (.countRead .read) afterFrame) = some 0x80 := by decide
theorem test_countRead_write : get State.count (exec (.countRead (.write 5)) afterFrame) = some 0x80 := by decide
theorem test_seqRead : get State.rdata (exec (.seqRead .read) State.reset) = some 0x00000001 := by decide
theorem test_crcRead : get State.rdata (exec (.crcRead .read) (inFrame .ctrl 0 1 0xFE 0xB6CE 0xB6CF)) =
    some 0xB6CFB6CE := by decide
theorem test_reserved1c : get State.rdata (exec (.reserved1c .read) { State.reset with rdata := 5 }) = some 0 := by
  decide
theorem test_reset :
    get (fun t => (words t, t.count, t.bufBase, t.txv, Mem.read t.mem 0x20001000)) (exec .reset
      { afterFrame with txv := true, txb := 0x06, mem := [(0x20001000, 0xAA)] }) =
    some ((0, 0x00000001, 0), 0, 0, false, some 0xAA) := by decide
theorem test_subword_refused :
    refusalOf (step { State.reset with events := [.hostRead 0x04 .half] }) = some .subwordAccess := by decide

/-! ## Steps -/

theorem test_step_byte_waits_behind_take :
    get (fun t => (t.txStream, t.events)) (step { awaitingReply with
      txv := true, txb := 0x43, events := [.rxByte 0x01, .txTake] }) = some ([0x43, 0x43], [.rxByte 0x01]) := by decide
theorem test_step_commits_alone : get State.idx (step (committingAt 5)) = some 6 := by decide
theorem test_step_silence_expires : get State.statusWord (step (inFrame .data 40 0x01 0xFE 0 0)) =
    some 0x00000404 := by decide
theorem test_withFetchWord_soh : get State.lastCtrl (step (State.reset.withFetchWord 8 0x01)) = some 0x01 := by decide
theorem test_withFetchWord_seqRead : get State.rdata (step (State.reset.withFetchWord 32 0x14)) = some 0x1 := by decide

/-! ## Witnesses: states and operands that meet the hypotheses of each obligation together -/

/-- The inputs of a clock cycle with a byte presented. -/
def bytePins : Pins :=
  { rst := false, rxValid := true, rxData := 0x01, rxErr := false, txReady := false, memAck := false, regSel := false,
    regWe := false, regAddr := 0, regWdata := 0, crcIdle := true }

/-- A device range that meets the configured region in its last byte. -/
def withDevice (s : State) : State := { s with cfg := { s.cfg with devices := [⟨0x200013FF, 4⟩] } }

theorem witness_blockInv_committing : BlockInv (committingAt 127) := by
  constructor <;> decide +kernel

theorem witness_EveryStepKeepsTheBlockInvariant :
    BlockInv (committingAt 127) ∧ ∃ t, step (committingAt 127) = .next t :=
  ⟨witness_blockInv_committing, _, rfl⟩

set_option maxRecDepth 20000 in
/-- Every clause of the record, at the boundary of its range. -/
theorem witness_EveryStepKeepsFrameRecord :
    (FrameRecord (inFrame .seqc 0 0x01 0xFE 0 0) ∧ ∃ t, step (inFrame .seqc 0 0x01 0xFE 0 0) = .next t) ∧
    (FrameRecord (inFrame .data 0 0x01 0xFE 0 0) ∧ ∃ t, step (inFrame .data 0 0x01 0xFE 0 0) = .next t) ∧
    (FrameRecord (inFrame .commit 127 0x01 0xFE 0 0) ∧ ∃ t, step (inFrame .commit 127 0x01 0xFE 0 0) = .next t) := by
  refine ⟨⟨?_, _, rfl⟩, ⟨?_, _, rfl⟩, ⟨?_, _, rfl⟩⟩ <;> constructor <;> decide +kernel

theorem witness_DecodeOfEncodeGivesTheOperation :
    ((Instr.otherCtrl 0xFF).wf = true ∧ encode (.otherCtrl 0xFF) = some (.rxByte 0xFF) ∧
      (Instr.otherCtrl 0xFF).inContext (at_ .ctrl 0) = true) ∧
    ((Instr.data 0x01).wf = true ∧ encode (.data 0x01) = some (.rxByte 0x01) ∧
      (Instr.data 0x01).inContext (at_ .data 127) = true) ∧
    ((Instr.reserved1c (.write 5)).wf = true ∧
      encode (.reserved1c (.write 5)) = some (.hostWrite 0x1C .word 5) ∧
      (Instr.reserved1c (.write 5)).inContext (at_ .commit 0) = true) := by decide

/-- The pending events: one that waits, then a row, a host access to memory, a misaligned access, a silent cycle. -/
theorem witness_StepRunsTheDecodedOperation :
    let s : State := { awaitingReply with txv := true, txb := 0x43, events := [.rxByte 0x01, .txTake, .rxErr] }
    s.cfg.Admitted ∧ s.events = [.rxByte 0x01] ++ .txTake :: [.rxErr] ∧
    (∀ x ∈ [Event.rxByte 0x01], occurs s.position x = false) ∧ occurs s.position .txTake = true ∧
    decode s.position .txTake = .ok .txTake ∧ occurs s.position (.memRead 0) = true ∧
    occurs s.position (.memWrite 0 1) = true ∧ occurs s.position .idle = true ∧
    occurs s.position (.hostRead 0x02 .word) = true ∧
    decode s.position (.hostRead 0x02 .word) = .error .subwordAccess ∧
    s.position.waiting = false ∧ awaitingReply.position.waiting = true ∧ awaitingReply.tmr ≤ 1 ∧
    1 < { awaitingReply with tmr := 2 }.tmr := by decide

/-- A choice made with a pending event that cannot occur; none, with host accesses alone and the patience used up; and none
while the block commits. -/
theorem witness_StepRunsTheDecodedOperation_liberties :
    let s : State := { awaitingReply with events := [.txTake], liberties := [.commitStep, .rxByte 0x01] }
    let r : State := { receivingAt .data 40 with liberties := [.hostRead 0x04 .word] }
    (s.cfg.Admitted ∧ (∀ x ∈ s.events, occurs s.position x = false) ∧ s.choice = some (.rxByte 0x01)) ∧
    (r.cfg.Admitted ∧ r.events = [] ∧ r.choice = none ∧ occurs r.position (.hostRead 0x04 .word) = true ∧
      r.position.committing = false) ∧
    ((committingAt 5).choice = none ∧ (committingAt 5).position.committing = true) := by
  refine ⟨⟨by decide, by decide, choice_singleton (by decide)⟩, ?_, ?_⟩ <;> decide

theorem witness_ControlByteSelectsTheFirstMatch :
    ((at_ .ctrl 0).txv = false ∧ (at_ .ctrl 0).state = .receiving ∧ (at_ .ctrl 0).phase = .ctrl) ∧
    (0x79 : Byte) ≠ 0x01 ∧ (0x79 : Byte) ≠ 0x04 ∧ (0x79 : Byte) ≠ 0x18 ∧ (0x79 : Byte) ≠ 0x1B := by decide

theorem witness_ReceiveEventsOccurExactlyWhereTheBlockWaits :
    ((inFrame .data 127 1 0xFE 0 0).phase = .data → (inFrame .data 127 1 0xFE 0 0).idx.toNat ≤ 127) ∧
    (inFrame .data 127 1 0xFE 0 0).reading ∧ awaitingReply.awaiting ∧
    ¬ (committingAt 0).reading ∧ ¬ (committingAt 0).awaiting := by decide +kernel

theorem witness_OutsideItsContextNothingRuns :
    State.reset.cfg.Admitted ∧ (Instr.soh).inContext State.reset.position = false ∧
    (Instr.data 1).inContext (inFrame .data 128 1 0xFE 0 0).position = false := by decide

/-- The states of the control-byte, handshake and frame-byte statements. -/
theorem witness_receiving_statements :
    configured.cfg.Admitted ∧ (receivingAt .ctrl 0).receivingIn .ctrl ∧ (receivingAt .seq 0).receivingIn .seq ∧
    (receivingAt .seqc 0).receivingIn .seqc ∧ (receivingAt .crch 128).receivingIn .crch ∧ awaitingReply.awaiting ∧
    (receivingAt .ctrl 0).cfg.Admitted ∧ awaitingReply.cfg.Admitted := by decide

theorem witness_SohStartsAFrame : (receivingAt .ctrl 0).cfg.Admitted ∧ (receivingAt .ctrl 0).receivingIn .ctrl := by
  decide
theorem witness_EotEndsTheTransfer : afterFrame.cfg.Admitted ∧ afterFrame.receivingIn .ctrl := by decide
theorem witness_SenderCancelAndEscapeAbort : afterFrame.cfg.Admitted ∧ afterFrame.receivingIn .ctrl := by decide

theorem witness_UnrecognisedControlBytes :
    ((receivingAt .ctrl 0).cfg.Admitted ∧ (receivingAt .ctrl 0).receivingIn .ctrl) ∧
    ((withAbort afterFrame).cfg.Admitted ∧ (withAbort afterFrame).receivingIn .ctrl) ∧
    (0x00 : Byte) ≠ 0x01 ∧ (0x00 : Byte) ≠ 0x04 ∧ (0x00 : Byte) ≠ 0x18 ∧ (0x00 : Byte) ≠ 0x1B := by decide

/-- A sender of unrecognised bytes without end, and a host that polls. -/
theorem witness_UnrecognisedControlBytes_for_ever :
    let s : State := { receivingAt .ctrl 0 with liberties := [.rxByte 0x79, .hostRead 0x04 .word] }
    s.cfg.Admitted ∧ s.receivingIn .ctrl ∧ s.cfg.unknownCtrl = .discard ∧ s.events = [] ∧
    (∃ b, .rxByte b ∈ s.liberties) ∧
    ∀ e ∈ s.liberties, (∃ b : Byte, e = .rxByte b ∧ b ≠ 0x01 ∧ b ≠ 0x04 ∧ b ≠ 0x18 ∧ b ≠ 0x1B) ∨
      ∃ off : Offset, e = .hostRead off .word ∧ off.toNat % 4 = 0 := by
  refine ⟨by decide, by decide, rfl, rfl, ⟨0x79, by decide⟩, ?_⟩
  simp only [List.mem_cons, List.not_mem_nil, or_false]
  rintro e (rfl | rfl)
  · exact .inl ⟨0x79, rfl, by decide⟩
  · exact .inr ⟨0x04, rfl, by decide⟩

theorem witness_HandshakeReplyIsTheFirstControlByte :
    (awaitingReply.cfg.Admitted ∧ awaitingReply.awaiting) ∧
    ((withAbort awaitingReply).cfg.Admitted ∧ (withAbort awaitingReply).awaiting) := by decide

theorem witness_HandshakeReplyIsTheFirstControlByte_eot :
    BlockInv awaitingReply ∧ awaitingReply.cfg.Admitted ∧ awaitingReply.awaiting :=
  ⟨by constructor <;> decide +kernel, by decide, by decide⟩

theorem witness_SequenceBytesAreStored :
    (receivingAt .seq 0).cfg.Admitted ∧ (receivingAt .seq 0).receivingIn .seq ∧
    (receivingAt .seqc 0).cfg.Admitted ∧ (receivingAt .seqc 0).receivingIn .seqc := by decide

/-- At `IDX = 0` and at `IDX = 127`. -/
theorem witness_PayloadByteIsStagedAndFolded :
    ((receivingAt .data 0).cfg.Admitted ∧ (receivingAt .data 0).receivingIn .data ∧
      (receivingAt .data 0).idx.toNat ≤ 127) ∧
    ((receivingAt .data 127).cfg.Admitted ∧ (receivingAt .data 127).receivingIn .data ∧
      (receivingAt .data 127).idx.toNat ≤ 127) := by decide +kernel

theorem witness_TrailerHighByteIsStored :
    (receivingAt .crch 128).cfg.Admitted ∧ (receivingAt .crch 128).receivingIn .crch := by decide

/-- One state for each of the five outcomes; the last two at the boundary of `BUF_LEN`. The byte is 0xCE, or 0xCF for
the first. -/
theorem witness_TrailerLowByteValidatesTheFrame :
    let trailer (s : State) (b : Byte) : Crc16 := s.rxCrc.extractLsb' 8 8 ++ b
    let bad := inFrame .crcl 128 0x01 0xFE 0xB6CE 0xB600
    let seq := inFrame .crcl 128 0x02 0xFD 0xB6CE 0xB600
    let cmp := inFrame .crcl 128 0x01 0xFF 0xB6CE 0xB600
    let fit : State := { inFrame .crcl 128 0x01 0xFE 0xB6CE 0xB600 with bufLen := 128 }
    let long : State := { inFrame .crcl 128 0x01 0xFE 0xB6CE 0xB600 with bufLen := 127 }
    (bad.cfg.Admitted ∧ bad.receivingIn .crcl ∧ trailer bad 0xCF ≠ bad.calcCrc) ∧
    (seq.cfg.Admitted ∧ seq.receivingIn .crcl ∧ trailer seq 0xCE = seq.calcCrc ∧ seq.rxSeq ≠ seq.expSeq) ∧
    (cmp.cfg.Admitted ∧ cmp.receivingIn .crcl ∧ trailer cmp 0xCE = cmp.calcCrc ∧ cmp.rxSeq = cmp.expSeq ∧
      cmp.rxSeqc ≠ ~~~cmp.rxSeq) ∧
    (fit.cfg.Admitted ∧ fit.receivingIn .crcl ∧ trailer fit 0xCE = fit.calcCrc ∧ fit.rxSeq = fit.expSeq ∧
      fit.rxSeqc = ~~~fit.rxSeq ∧ fit.count.toNat + 128 ≤ fit.bufLen.toNat) ∧
    (long.cfg.Admitted ∧ long.receivingIn .crcl ∧ trailer long 0xCE = long.calcCrc ∧ long.rxSeq = long.expSeq ∧
      long.rxSeqc = ~~~long.rxSeq ∧ long.bufLen.toNat < long.count.toNat + 128) := by decide +kernel

/-- One state for each of the five outcomes. -/
theorem witness_ValidationChoosesTheCauseInOrder :
    let bad := inFrame .crcl 128 0x02 0x02 0x0000 0x0001
    let seq := inFrame .crcl 128 0x02 0xFD 0xB6CE 0xB6CE
    let cmp := inFrame .crcl 128 0x01 0xFF 0xB6CE 0xB6CE
    let fit : State := { inFrame .crcl 128 0x01 0xFE 0xB6CE 0xB6CE with bufLen := 128 }
    let long : State := { inFrame .crcl 128 0x01 0xFE 0xB6CE 0xB6CE with bufLen := 127 }
    (bad.cfg.Admitted ∧ bad.receivingIn .crcl ∧ bad.rxCrc ≠ bad.calcCrc) ∧
    (seq.receivingIn .crcl ∧ seq.rxCrc = seq.calcCrc ∧ seq.rxSeq ≠ seq.expSeq) ∧
    (cmp.receivingIn .crcl ∧ cmp.rxCrc = cmp.calcCrc ∧ cmp.rxSeq = cmp.expSeq ∧ cmp.rxSeqc ≠ ~~~cmp.rxSeq) ∧
    (fit.receivingIn .crcl ∧ fit.rxCrc = fit.calcCrc ∧ fit.rxSeq = fit.expSeq ∧ fit.rxSeqc = ~~~fit.rxSeq ∧
      fit.count.toNat + 128 ≤ fit.bufLen.toNat) ∧
    (long.receivingIn .crcl ∧ long.rxCrc = long.calcCrc ∧ long.rxSeq = long.expSeq ∧ long.rxSeqc = ~~~long.rxSeq ∧
      long.bufLen.toNat < long.count.toNat + 128) := by decide +kernel

theorem witness_RejectSendsOneCanAndAborts :
    (receivingAt .crcl 128).cfg.Admitted ∧ (receivingAt .crcl 128).receivingIn .crcl := by decide

theorem witness_AcceptEntersCommitWhereTheFrameFits :
    let fit : State := { receivingAt .crcl 128 with bufLen := 128 }
    let long : State := { receivingAt .crcl 128 with bufLen := 127 }
    (fit.cfg.Admitted ∧ fit.receivingIn .crcl ∧ fit.count.toNat + 128 ≤ fit.bufLen.toNat) ∧
    (long.cfg.Admitted ∧ long.receivingIn .crcl ∧ long.bufLen.toNat < long.count.toNat + 128) := by decide +kernel

/-- At `IDX = 0` and at `IDX = 127`. -/
theorem witness_CommitStepWritesOneByte :
    ((committingAt 0).cfg.Admitted ∧ (committingAt 0).state = .receiving ∧ (committingAt 0).phase = .commit ∧
      (committingAt 0).idx.toNat < 128) ∧
    ((committingAt 127).cfg.Admitted ∧ (committingAt 127).state = .receiving ∧ (committingAt 127).phase = .commit ∧
      (committingAt 127).idx.toNat < 128) := by decide +kernel

theorem witness_CommitEndFinishesTheFrame :
    (committingAt 128).cfg.Admitted ∧ (committingAt 128).state = .receiving ∧ (committingAt 128).phase = .commit ∧
    (committingAt 128).idx = 128 := by decide

/-- The region may end at the top of the address space. -/
theorem witness_CommitCopiesThePayload :
    let s : State := { committingAt 0 with bufBase := 0xFFFFFF80, bufLen := 0x80 }
    s.cfg.Admitted ∧ s.state = .receiving ∧ s.phase = .commit ∧ s.idx = 0 ∧ s.quiet ∧
    s.bufBase.toNat + s.count.toNat + 128 ≤ 2 ^ s.cfg.aw := by decide +kernel

theorem witness_CommitPrefixIsWrittenInOrder :
    let s := committingAt 0
    s.cfg.Admitted ∧ s.state = .receiving ∧ s.phase = .commit ∧ s.idx = 0 ∧ s.quiet ∧
    s.bufBase.toNat + s.count.toNat + 128 ≤ 2 ^ s.cfg.aw ∧ 127 ≤ 127 := by decide +kernel

theorem witness_CommitAddressLiesInTheRegion :
    BlockInv (committingAt 127) ∧ (committingAt 127).position.committing = true :=
  ⟨witness_blockInv_committing, by decide⟩

theorem witness_EmittingRowsOfferTheirByte :
    awaitingReply.cfg.Admitted ∧ awaitingReply.awaiting ∧ (receivingAt .ctrl 0).receivingIn .ctrl ∧
    (receivingAt .crcl 128).receivingIn .crcl := by decide

/-- A byte offered in the handshake, in RECEIVING, and after the end. -/
theorem witness_TxTakeDrainsTheOfferedByte :
    ({ awaitingReply with txv := true, txb := 0x43 } : State).txv = true ∧
    ({ afterFrame with txv := true, txb := 0x06 } : State).txv = true ∧
    ({ configured with state := .done, txv := true } : State).txv = true ∧ awaitingReply.cfg.Admitted := by decide

theorem witness_PollTimeoutSendsC : awaitingReply.cfg.Admitted ∧ awaitingReply.awaiting := by decide

theorem witness_TransportErrorsAbort :
    (receivingAt .ctrl 0).cfg.Admitted ∧ (receivingAt .ctrl 0).reading ∧ (receivingAt .crcl 128).reading ∧
    awaitingReply.awaiting := by decide

/-- With `TMR` at 0 and at 5, waiting for a frame byte and in the handshake. -/
theorem witness_SilenceRunsTheWaitTimerOut :
    ((receivingAt .data 40).cfg.Admitted ∧ (receivingAt .data 40).quiet ∧ (receivingAt .data 40).reading) ∧
    (({ awaitingReply with tmr := 5 } : State).quiet ∧ ({ awaitingReply with tmr := 5 } : State).awaiting) ∧
    (({ awaitingReply with tmr := 0 } : State).awaiting) := by decide

/-- A transport that takes every `'C'`, and nobody who answers. -/
theorem witness_SilenceRunsTheWaitTimerOut_handshake :
    let s : State := { awaitingReply with liberties := [.txTake] }
    s.cfg.Admitted ∧ s.state = .awaitingStart ∧ s.events = [] ∧ ∀ e ∈ s.liberties, e = .txTake := by decide

/-- A host that polls `STATUS` without end while a byte is waited for: with patience left, and at its end. -/
theorem witness_SilenceRunsTheWaitTimerOut_polling :
    let s : State := { receivingAt .data 40 with tmr := 2, patience := 1, liberties := [.hostRead 0x04 .word] }
    (s.cfg.Admitted ∧ s.reading ∧ s.events = [] ∧ s.liberties ≠ [] ∧ (∀ e ∈ s.liberties, isHostAccess e = true) ∧
      ∀ e ∈ s.liberties, ∃ off : Offset, e = .hostRead off .word ∧ off.toNat % 4 = 0) ∧
    get State.patience (step s) = some 0 ∧ get State.state (step { s with tmr := 1, patience := 0 }) = some .aborted := by
  intro s
  refine ⟨⟨by decide, by decide, rfl, by decide, by decide, ?_⟩, ?_, by decide⟩
  · simp only [s, List.mem_singleton, forall_eq]
    exact ⟨0x04, rfl, by decide⟩
  · rw [step_of_run (fetch_liberty (by decide) rfl (choice_singleton (e := .hostRead 0x04 .word) (by decide)))]
    rfl

/-- 42_transfer_fsm.md R177: a byte of an endless sender, under DISCARD. -/
theorem test_step_takes_a_liberty :
    get (fun t => (t.state, t.lastCtrl))
      (step { receivingAt .ctrl 0 with liberties := [.txTake, .rxByte 0x79] }) = some (.receiving, 0x79) := by
  rw [step_of_run (fetch_liberty (by decide) rfl (choice_singleton (e := .rxByte 0x79) (by decide)))]
  rfl

/-- The four clauses; the wrap at its boundary. -/
theorem witness_StartOpensASession :
    let top : State := { State.reset with bufBase := 0xFFFFFF80, bufLen := 0x80 }
    let long : State := { State.reset with bufBase := 0xFFFFFF80, bufLen := 0x81 }
    State.reset.cfg.Admitted ∧ (0xFFFFFFFE : Word).getLsbD 0 = false ∧ awaitingReply.busy = true ∧
    ((1 : Word).getLsbD 0 = true ∧ long.busy = false ∧ 2 ^ long.cfg.aw < long.bufBase.toNat + long.bufLen.toNat) ∧
    ((1 : Word).getLsbD 0 = true ∧ top.busy = false ∧ top.bufBase.toNat + top.bufLen.toNat ≤ 2 ^ top.cfg.aw ∧
      top.regionHitsDevice = false) := by decide +kernel

theorem witness_DeviceRegionIsRefusedAtStart :
    let s := withDevice configured
    s.cfg.Admitted ∧ (1 : Word).getLsbD 0 = true ∧ s.busy = false ∧
    s.bufBase.toNat + s.bufLen.toNat ≤ 2 ^ s.cfg.aw ∧ ⟨0x200013FF, 4⟩ ∈ s.cfg.devices ∧
    ∃ a, s.inRegion a = true ∧ 0x200013FF ≤ a ∧ a < 0x200013FF + 4 := by
  refine ⟨by decide, by decide, by decide, by decide +kernel, by decide, 0x200013FF, by decide +kernel⟩

/-- StatusReadShowsItsFields, SeqAndCrcReadsShowTheirFields and PlainRegistersReadAndIgnoreWrites. -/
theorem witness_registers :
    afterFrame.cfg.Admitted ∧ (0xFFFFFFFE : Word).getLsbD 0 = (0 : Word).getLsbD 0 := by decide

/-- Busy, not busy with `AW = 16`, and `AW = 33`. -/
theorem witness_BufferRegistersAreWrittenOnlyWhileNotBusy :
    (awaitingReply.cfg.Admitted ∧ awaitingReply.busy = true) ∧
    (({ configured with cfg := { State.resetConfig with aw := 16 } } : State).cfg.Admitted ∧
      ({ configured with cfg := { State.resetConfig with aw := 16 } } : State).busy = false) ∧
    ({ State.resetConfig with aw := 33 } : Config).nakRetry = false ∧
    32 < ({ State.resetConfig with aw := 33 } : Config).aw := by decide

/-- At both ends of the window, while busy. -/
theorem witness_NoHostReadHasASideEffect :
    ({ afterFrame with events := [.hostRead 0x00 .word] } : State).cfg.Admitted ∧ (0x00 : Offset).toNat % 4 = 0 ∧
    (0x1C : Offset).toNat % 4 = 0 ∧
    ({ afterFrame with events := [.hostRead 0x1C .word] } : State).events = .hostRead 0x1C .word :: [] := by decide

/-- A committed byte, a byte below `COUNT` that nothing has written, and a byte at offset `COUNT`, while busy. -/
theorem witness_HostReadOfMemoryReturnsTheLastWrite :
    let s : State := { afterFrame with mem := [(0x2000107F, 0xAA)], events := [.memRead 0x2000107F] }
    let r : State := { afterFrame with events := [.memRead 0x20001080] }
    (s.cfg.Admitted ∧ s.events = .memRead 0x2000107F :: [] ∧ (0x2000107F : Word).toNat < 2 ^ s.cfg.aw ∧
      isDevice s.cfg (0x2000107F : Word).toNat = false ∧ Mem.read s.mem (0x2000107F : Word).toNat = some 0xAA ∧
      (0x2000107F : Word).toNat < s.bufBase.toNat + s.count.toNat) ∧
    Mem.read { s with mem := [] }.mem (0x2000107F : Word).toNat = none ∧
    (r.events = .memRead 0x20001080 :: [] ∧ (0x20001080 : Word).toNat < 2 ^ r.cfg.aw ∧
      isDevice r.cfg (0x20001080 : Word).toNat = false ∧ r.busy = true ∧ r.inRegion (0x20001080 : Word).toNat = true ∧
      r.bufBase.toNat + r.count.toNat ≤ (0x20001080 : Word).toNat) := by decide +kernel

/-- The last byte of a busy region, and the first byte after it. -/
theorem witness_HostWriteIntoABusyRegionFaults :
    let s : State := { afterFrame with events := [.memWrite 0x200013FF 0x11] }
    let r : State := { afterFrame with events := [.memWrite 0x20001400 0x11] }
    (s.cfg.Admitted ∧ s.events = .memWrite 0x200013FF 0x11 :: [] ∧ (0x200013FF : Word).toNat < 2 ^ s.cfg.aw ∧
      isDevice s.cfg (0x200013FF : Word).toNat = false ∧ s.busy = true ∧
      s.inRegion (0x200013FF : Word).toNat = true) ∧
    (r.events = .memWrite 0x20001400 0x11 :: [] ∧ (0x20001400 : Word).toNat < 2 ^ r.cfg.aw ∧
      isDevice r.cfg (0x20001400 : Word).toNat = false ∧ r.inRegion (0x20001400 : Word).toNat = false) := by
  decide +kernel

theorem witness_WhatTheModelDoesNotAdmitIsRefused :
    ((AccessSize.half ≠ .word ∨ (0x04 : Offset).toNat % 4 ≠ 0) ∧ State.reset.cfg.Admitted) ∧
    (AccessSize.word ≠ .word ∨ (0x06 : Offset).toNat % 4 ≠ 0) ∧
    ({ State.resetConfig with nakRetry := true } : Config).nakRetry = true ∧
    ({ State.resetConfig with aw := 33 } : Config).nakRetry = false ∧
    32 < ({ State.resetConfig with aw := 33 } : Config).aw := by decide

/-- Outside a commit, and with one in progress. -/
theorem witness_ResetCommandRestoresTheRegisters :
    afterFrame.cfg.Admitted ∧ afterFrame.position.committing = false ∧ (committingAt 5).cfg.Admitted ∧
    (committingAt 5).position.committing = true := by decide

theorem witness_CrcUpdateFollowsThePseudocode : State.reset.cfg.Admitted := by decide

theorem witness_CrcDetectsOneChangedByte : (0xAA : Byte) ≠ 0xAB := by decide

theorem witness_OnlyCommitsAndTheHostWriteMemory :
    ∃ t, step (committingAt 5) = .next t ∧ Mem.read t.mem 0x20001005 ≠ Mem.read (committingAt 5).mem 0x20001005 :=
  ⟨_, rfl, by decide +kernel⟩

/-- Operations that answer a next state, one for each clause of OnlyFramesAdvanceCount,
OnlySohDataStartAndResetWriteCalcCrc and OnlyTheHostChangesTheBuffer. -/
theorem witness_operations_that_run :
    (∃ t, exec .commitStep (committingAt 127) = .next t) ∧ (∃ t, exec (.data 0xAA) (receivingAt .data 0) = .next t) ∧
    (∃ t, exec (.bufLenAccess (.write 5)) State.reset = .next t ∧ Instr.bufLenAccess (.write 5) ≠ .reset) ∧
    (∃ t, exec .pollTimeout awaitingReply = .next t) :=
  ⟨⟨_, rfl⟩, ⟨_, rfl⟩, ⟨_, rfl, by decide⟩, ⟨_, rfl⟩⟩

theorem witness_NoStepChangesTheParameters : ∃ t, step awaitingReply = .next t := ⟨_, rfl⟩

theorem witness_OnlyCAckAndCanAreSent : ∃ s t : State, BlockInv s ∧ s.txv = true ∧ step s = .next t := by
  refine ⟨{ awaitingReply with txv := true, txb := 0x43, events := [.txTake] }, _, ?_, rfl, rfl⟩
  constructor <;> decide +kernel

/-- A START and a reset of an ended transfer. -/
theorem witness_EndedTransfersAreLeftOnlyByStartOrReset :
    let d : State := { configured with state := .done, result := .ok }
    (d.state = .done ∨ d.state = .aborted) ∧
    (∃ t, step { d with events := [.hostWrite 0x00 .word 1] } = .next t) ∧
    (∃ t, step { d with events := [.reset] } = .next t) :=
  ⟨.inl rfl, ⟨_, rfl⟩, ⟨_, rfl⟩⟩

/-- An abort that writes `TMR`, one that writes `LAST_CTRL`, and one that writes `RX_CRC` and sends CAN. -/
theorem witness_AnAbortKeepsItsEvidence :
    (receivingAt .data 40).state ≠ .aborted ∧
    (∃ t, exec .rxTimeout (receivingAt .data 40) = .next t ∧ t.state = .aborted ∧ t.tmr = 0) ∧
    (∃ t, exec .escRx (receivingAt .ctrl 0) = .next t ∧ t.state = .aborted ∧ t.lastCtrl = 0x1B) ∧
    (∃ t, exec (.crcl 0xCF) (inFrame .crcl 128 0x01 0xFE 0xB6CE 0xB600) = .next t ∧ t.state = .aborted ∧
      t.rxCrc = 0xB6CF ∧ t.txb = 0x18) :=
  ⟨by decide, ⟨_, rfl, rfl, rfl⟩, ⟨_, rfl, rfl, rfl⟩, ⟨_, rfl, rfl, by decide, rfl⟩⟩

theorem witness_OnlyTheExpectedFrameIsCommitted :
    let s : State := { inFrame .crcl 128 0x01 0xFE 0xB6CE 0xB600 with events := [.rxByte 0xCE] }
    ∃ t, step s = .next t ∧ s.phase ≠ .commit ∧ t.phase = .commit := ⟨_, rfl, by decide, rfl⟩

theorem witness_TxbIsNotReadWhileNothingIsOffered :
    awaitingReply.txv = false ∧ ∃ t, exec (.handshakeReply 0x01) awaitingReply = .next t := ⟨rfl, _, rfl⟩

theorem witness_TheStagingBufferIsHidden :
    (∃ t, exec (.seq 0x01) (receivingAt .seq 0) = .next t) ∧ (receivingAt .seq 0).position.committing = false :=
  ⟨⟨_, rfl⟩, rfl⟩

/-- Every clause; `rst` together with a host access, and a byte together with one. -/
theorem witness_OneCycleIsOneBlockEvent :
    ({ bytePins with rst := true, regSel := true } : Pins).rst = true ∧
    (bytePins.rst = false ∧ awaitingReply.awaiting ∧ bytePins.crcIdle = true ∧ bytePins.rxValid = true ∧
      bytePins.rxErr = false) ∧
    ({ bytePins with regSel := true, regWe := true } : Pins).rst = false ∧
    (({ bytePins with rxErr := true } : Pins).rxErr = true ∧ (receivingAt .crcl 128).reading) ∧
    ({ bytePins with rxValid := false } : Pins).rxValid = false ∧
    (({ awaitingReply with txv := true } : State).txv = true ∧
      ({ awaitingReply with txv := true } : State).position.committing = false) ∧
    ((committingAt 127).txv = false ∧ (committingAt 127).position.committing = true) ∧
    (State.reset.txv = false ∧ State.reset.position.waiting = false ∧
      State.reset.position.committing = false) := by decide

end Sys2Proof.Tests
end

/-! The implementation parameters (00_scope.md R7 to R9) are constants of a run: no shared operation, no operation of the
table and no step writes `State.cfg`. -/

namespace Sys2Proof.Machine

/-! ## The shared operations that choose between updates -/

@[simp] theorem dispatchCtrl_cfg (b : Byte) (s : State) : (dispatchCtrl b s).cfg = s.cfg := by
  rcases dispatchCtrl_cases b s with h | h | ⟨c, -, h⟩ | h <;> simp [h]

@[simp] theorem commitByte_cfg (s : State) : (commitByte s).cfg = s.cfg := by
  rcases commitByte_cases s with ⟨-, h⟩ | ⟨-, h⟩ <;> simp [h]

@[simp] theorem takeByte_cfg (s : State) : (takeByte s).cfg = s.cfg := by
  obtain ⟨n, -, h⟩ := takeByte_cases s
  rw [h]

@[simp] theorem writeInFlight_cfg (s : State) : (writeInFlight s).cfg = s.cfg := by
  rcases writeInFlight_cases s with ⟨-, h⟩ | ⟨-, m, -, h⟩ <;> rw [h]

@[simp] theorem State.taken_cfg (s : State) (es : List Event) (n d p : Nat) : (s.taken es n d p).cfg = s.cfg := rfl

/-! ## Every operation, every host access, every step -/

/-- Most effects are one update of other fields; the five named are those whose update depends on the state. -/
theorem Effect.cfg_eq {i : Instr} {s t : State} (h : Effect i s t) : t.cfg = s.cfg := by
  cases h
  case unrecognised b hi hs e => rcases e with rfl | rfl <;> rfl
  case handshakeReply b hi hs e => simp [e]
  case commitStep hi hs e => simp [e]
  case txTake hi hs e => simp [e]
  case reset hi e => simp [e]
  all_goals
    rename_i e
    subst e
    rfl

theorem exec_cfg {i : Instr} {s t : State} (h : exec i s = .next t) : t.cfg = s.cfg :=
  (exec_effect h).cfg_eq

theorem hostMemRead_cfg {addr : Word} {s t : State} (h : hostMemRead addr s = .next t) : t.cfg = s.cfg := by
  obtain ⟨v, n, rfl⟩ := hostMemRead_next h
  rfl

theorem hostMemWrite_cfg {addr : Word} {v : Byte} {s t : State} (h : hostMemWrite addr v s = .next t) :
    t.cfg = s.cfg := by
  obtain ⟨-, rfl⟩ := hostMemWrite_next h
  rfl

theorem step_cfg {s t : State} (h : step s = .next t) : t.cfg = s.cfg := by
  obtain ⟨-, es, n, d, p, -, -, ⟨i, -, -, -, -, hx⟩ | ⟨addr, -, hr⟩ | ⟨addr, v, -, hw⟩ | rfl⟩ := step_cases h
  · exact (exec_cfg hx).trans (s.taken_cfg es n d p)
  · exact (hostMemRead_cfg hr).trans (s.taken_cfg es n d p)
  · exact (hostMemWrite_cfg hw).trans (s.taken_cfg es n d p)
  · exact s.taken_cfg es n d p

/-- Settles O53: an operation, a host access and a silent cycle each keep the parameters, and a step is one of these. -/
theorem noStepChangesTheParameters : Obligations.NoStepChangesTheParameters :=
  fun _ _ h => step_cfg h

end Sys2Proof.Machine

/-! The block invariant of 10_state.md R43: one lemma per update of the state says when the update keeps it. The step
lemma (O3) puts them together along `exec_effect` and `step_cases`. -/

namespace Sys2Proof.Machine

/-! ## The parts of the invariant that updates share -/

/-- `IDX` is in its range for a `PHASE` (10_state.md R25, R43 point 2). -/
structure IdxFits (ph : Phase) (i : Byte) : Prop where
  inFrame : ph = .data ∨ ph = .commit → i.toNat ≤ 127
  inTrailer : ph = .crch ∨ ph = .crcl → i = 128
  elsewhere : ph = .ctrl ∨ ph = .seq ∨ ph = .seqc → i = 0

theorem BlockInv.idxFits {s : State} (h : BlockInv s) : IdxFits s.phase s.idx :=
  ⟨h.idxInFrame, h.idxInTrailer, h.idxElsewhere⟩

/-- The destination of a running transfer (10_state.md R43 point 3, 20_memory.md R61, R64). -/
structure RegionRuns (s : State) : Prop where
  holdsCount : s.count.toNat ≤ s.bufLen.toNat
  fits : s.bufBase.toNat + s.bufLen.toNat ≤ 2 ^ s.cfg.aw
  ordinary : s.regionHitsDevice = false

theorem BlockInv.regionRuns {s : State} (h : BlockInv s) (hb : s.busy = true) : RegionRuns s :=
  ⟨h.countFits hb, h.regionFits hb, h.regionOrdinary hb⟩

theorem State.busy_of_receiving {s : State} (h : s.state = .receiving) : s.busy = true :=
  s.busy_iff.2 (.inr (.inl h))

theorem State.busy_of_awaiting {s : State} (h : s.state = .awaitingStart) : s.busy = true :=
  s.busy_iff.2 (.inl h)

/-- The handshake stands in `PHASE = CTRL` (10_state.md R24). -/
theorem BlockInv.phase_of_awaiting {s : State} (h : BlockInv s) (hs : s.state = .awaitingStart) : s.phase = .ctrl := by
  by_contra hp
  simp [h.phaseOnlyReceiving hp] at hs

theorem State.committing_iff (s : State) :
    s.position.committing = true ↔ s.state = .receiving ∧ s.phase = .commit ∧ s.idx.toNat < 128 :=
  Position.committing_iff _

/-! ## Updates of registers the invariant does not tie to the transfer -/

/-- What a frame records of itself is free. -/
theorem BlockInv.setRecord {s : State} (h : BlockInv s) (rxSeq rxSeqc lastCtrl : Byte) (calcCrc rxCrc : Crc16)
    (pkt : Vector Byte 128) : BlockInv { s with
      rxSeq := rxSeq, rxSeqc := rxSeqc, lastCtrl := lastCtrl, calcCrc := calcCrc, rxCrc := rxCrc, pkt := pkt } :=
  { h with }

/-- What accesses return and the count of draws are free. -/
theorem BlockInv.setReturned {s : State} (h : BlockInv s) (rdata : Word) (memData : Byte) (crcOut : Crc16) (draws : Nat) :
    BlockInv { s with rdata := rdata, memData := memData, crcOut := crcOut, draws := draws } :=
  { h with }

theorem BlockInv.recordCtrl {s : State} (h : BlockInv s) (b : Byte) : BlockInv (recordCtrl b s) :=
  h.setRecord _ _ b _ _ _

theorem BlockInv.restartWait {s : State} (h : BlockInv s) : BlockInv (restartWait s) :=
  { h with timerFits := fun hc => hc.2 }

theorem BlockInv.timerExpired {s : State} (h : BlockInv s) : BlockInv (timerExpired s) :=
  { h with timerFits := fun _ => Nat.two_pow_pos _ }

/-- Taking an event leaves the timer as it is or counts it down. -/
theorem BlockInv.taken {s : State} (h : BlockInv s) {n : Nat} (hn : n ≤ s.tmr) (es : List Event) (d p : Nat) :
    BlockInv (s.taken es n d p) :=
  { h with timerFits := fun hc => hn.trans_lt (h.timerFits hc) }

theorem BlockInv.write {s : State} (h : BlockInv s) (a : Nat) (v : Byte) :
    BlockInv { s with mem := Mem.write s.mem a v } :=
  { h with memoryCanonical := Mem.write_wf a v h.memoryCanonical }

/-! ## Updates of the position -/

/-- A byte moves the block through a frame. -/
theorem BlockInv.setPosition {s : State} (h : BlockInv s) (hs : s.state = .receiving) (ht : s.txv = false) {ph : Phase}
    {i : Byte} (hi : IdxFits ph i) (hc : ph = .commit → s.count.toNat + 128 ≤ s.bufLen.toNat) :
    BlockInv { s with phase := ph, idx := i } :=
  { h with
    phaseOnlyReceiving := fun _ => hs
    frameOffersNothing := fun _ => ht
    idxInFrame := hi.inFrame
    idxInTrailer := hi.inTrailer
    idxElsewhere := hi.elsewhere
    commitFits := hc }

/-- A position outside COMMIT needs nothing of the buffer. -/
theorem BlockInv.readFrame {s : State} (h : BlockInv s) (hs : s.state = .receiving) (ht : s.txv = false) {ph : Phase}
    {i : Byte} (hi : IdxFits ph i) (hp : ph ≠ .commit) : BlockInv { s with phase := ph, idx := i } :=
  h.setPosition hs ht hi (absurd · hp)

/-- The handshake is answered (42_transfer_fsm.md R173). -/
theorem BlockInv.setReceiving {s : State} (h : BlockInv s) (hs : s.state = .awaitingStart) :
    BlockInv { s with state := .receiving } :=
  have busy := State.busy_of_awaiting hs
  { h with
    phaseOnlyReceiving := fun _ => rfl
    countFits := fun _ => h.countFits busy
    countAwaiting := nofun
    regionFits := fun _ => h.regionFits busy
    regionOrdinary := fun _ => h.regionOrdinary busy
    resultNone := fun _ => h.resultNone (.inr (.inl hs))
    resultDone := nofun
    resultAborted := nofun }

/-- The transfer ends well (42_transfer_fsm.md R174). -/
theorem BlockInv.setDone {s : State} (h : BlockInv s) (hp : s.phase = .ctrl) :
    BlockInv { s with state := .done, result := .ok } :=
  have busy : State.busy { s with state := .done, result := .ok } = true → s.busy = true := by
    simp +contextual [State.busy_iff]
  { h with
    phaseOnlyReceiving := (absurd hp ·)
    countFits := fun hb => h.countFits (busy hb)
    countAwaiting := nofun
    regionFits := fun hb => h.regionFits (busy hb)
    regionOrdinary := fun hb => h.regionOrdinary (busy hb)
    resultNone := by simp
    resultDone := fun _ => rfl
    resultAborted := nofun }

/-- The abort entry keeps the invariant from every state (60_exceptions.md R241). -/
theorem BlockInv.abort {s : State} (h : BlockInv s) {c : XferResult} (hc : isAbortCause c) : BlockInv (abort c s) :=
  have busy : (Machine.abort c s).busy = true → s.busy = true := by
    simp +contextual [State.busy_iff]
  { h with
    phaseOnlyReceiving := by simp
    frameOffersNothing := by simp
    idxInFrame := by simp
    idxInTrailer := by simp
    idxElsewhere := by simp
    countFits := fun hb => h.countFits (busy hb)
    commitFits := nofun
    countAwaiting := nofun
    regionFits := fun hb => h.regionFits (busy hb)
    regionOrdinary := fun hb => h.regionOrdinary (busy hb)
    resultNone := by simp
    resultDone := nofun
    resultAborted := fun _ => hc }

/-! ## The transmit register -/

/-- Offering a byte makes the block busy, so the region must be one a transfer may run over (42_transfer_fsm.md R183). -/
theorem BlockInv.emit {s : State} (h : BlockInv s) (hp : s.phase = .ctrl) (hr : RegionRuns s) {b : Byte}
    (hb : emittable b) : BlockInv (emit b s) :=
  { h with
    frameOffersNothing := (absurd hp ·)
    countFits := fun _ => hr.holdsCount
    offersEmittable := fun _ => hb
    regionFits := fun _ => hr.fits
    regionOrdinary := fun _ => hr.ordinary }

theorem BlockInv.takeByte {s : State} (h : BlockInv s) : BlockInv (takeByte s) := by
  obtain ⟨n, hn, e⟩ := takeByte_cases s
  have busy : State.busy { s with txStream := s.txStream ++ [s.txb], txv := false, tmr := n } = true → s.busy = true := by
    simp only [State.busy_iff]
    tauto
  rw [e]
  exact { h with
    frameOffersNothing := fun _ => rfl
    countFits := fun hb => h.countFits (busy hb)
    offersEmittable := nofun
    regionFits := fun hb => h.regionFits (busy hb)
    regionOrdinary := fun hb => h.regionOrdinary (busy hb)
    timerFits := by
      intro hc
      rcases hn with rfl | rfl | rfl
      · exact h.timerFits hc
      · exact hc.1
      · exact hc.2 }

/-! ## The shared operations of a transfer -/

theorem isAbortCause_reject (c : RejectCause) : isAbortCause c.result := by
  cases c <;> decide

theorem BlockInv.startFrame {s : State} (h : BlockInv s) (hs : s.state = .receiving) (ht : s.txv = false) :
    BlockInv (startFrame s) :=
  ((h.setRecord s.rxSeq s.rxSeqc s.lastCtrl crcInit s.rxCrc s.pkt).readFrame hs ht
    ⟨by simp, by simp, fun _ => rfl⟩ (by simp)).restartWait

theorem BlockInv.endTransmission {s : State} (h : BlockInv s) (hs : s.state = .receiving) (hp : s.phase = .ctrl) :
    BlockInv (endTransmission s) :=
  have hr := h.regionRuns (State.busy_of_receiving hs)
  (h.setDone hp).emit hp ⟨hr.holdsCount, hr.fits, hr.ordinary⟩ (.inr (.inl rfl))

/-- A rejected frame offers its CAN from ABORTED (41_packet_reader.md R141). -/
theorem BlockInv.rejectFrame {s : State} (h : BlockInv s) (hs : s.state = .receiving) (c : RejectCause) :
    BlockInv (rejectFrame c s) :=
  have hr := h.regionRuns (State.busy_of_receiving hs)
  (h.abort (isAbortCause_reject c)).emit rfl ⟨hr.holdsCount, hr.fits, hr.ordinary⟩ (.inr (.inr rfl))

theorem BlockInv.dispatchCtrl {s : State} (h : BlockInv s) (hs : s.state = .receiving) (hp : s.phase = .ctrl)
    (ht : s.txv = false) (b : Byte) : BlockInv (dispatchCtrl b s) := by
  have hb := h.recordCtrl b
  rcases dispatchCtrl_cases b s with e | e | ⟨c, hc, e⟩ | e <;> rw [e]
  · exact hb.startFrame hs ht
  · exact hb.endTransmission hs hp
  · exact hb.abort (by rcases hc with rfl | rfl | rfl <;> decide)
  · exact hb.restartWait

/-- One more frame: `COUNT` and `EXP_SEQ` advance together (41_packet_reader.md R151, 10_state.md R43 point 4). -/
theorem expSeq_succ (n : Nat) :
    BitVec.ofNat 8 (1 + n / 128) + 1 = BitVec.ofNat 8 (1 + (n + 128) / 128) := by
  rw [Nat.add_div_right n (by decide), ← add_assoc, BitVec.ofNat_add (1 + n / 128)]
  rfl

theorem BlockInv.finishFrame {s : State} (h : BlockInv s) (hs : s.state = .receiving) (hp : s.phase = .commit) :
    BlockInv (finishFrame s) := by
  have hr := h.regionRuns (State.busy_of_receiving hs)
  have hfit := h.commitFits hp
  have hcount : (s.count + 128).toNat = s.count.toNat + 128 := by bv_omega
  have counted : BlockInv { s with count := s.count + 128, expSeq := s.expSeq + 1, idx := 0, phase := .ctrl } :=
    { h with
      phaseOnlyReceiving := by simp
      frameOffersNothing := by simp
      idxInFrame := by simp
      idxInTrailer := by simp
      idxElsewhere := fun _ => rfl
      countAligned := by
        have := h.countAligned
        simp only [hcount]
        omega
      countFits := fun _ => hcount ▸ hfit
      commitFits := nofun
      countAwaiting := by simp [hs]
      seqTracksCount := by simp only [hcount, h.seqTracksCount, expSeq_succ] }
  exact counted.emit rfl ⟨hcount ▸ hfit, hr.fits, hr.ordinary⟩ (.inr (.inl rfl))

theorem BlockInv.commitByte {s : State} (h : BlockInv s) (hc : s.position.committing = true) :
    BlockInv (commitByte s) := by
  obtain ⟨hs, hp, hi⟩ := s.committing_iff.1 hc
  have written := h.write s.destAddress s.stagedByte
  rcases commitByte_cases s with ⟨-, e⟩ | ⟨hne, e⟩ <;> rw [e]
  · exact written.finishFrame hs hp
  · have hidx : (s.idx + 1).toNat ≤ 127 := by bv_omega
    exact written.setPosition (ph := s.phase) hs (h.frameOffersNothing (by simp [hp]))
      ⟨fun _ => hidx, by simp [hp], by simp [hp]⟩ h.commitFits

/-! ## START, the buffer registers, reset -/

/-- A fresh session over a region that START admits (43_host_interface.md R212). -/
theorem BlockInv.openSession {s : State} (h : BlockInv s) (hw : s.bufBase.toNat + s.bufLen.toNat ≤ 2 ^ s.cfg.aw)
    (hd : s.regionHitsDevice = false) : BlockInv (openSession s) :=
  { h with
    phaseOnlyReceiving := by simp
    frameOffersNothing := by simp
    idxInFrame := by simp
    idxInTrailer := by simp
    idxElsewhere := fun _ => rfl
    countAligned := rfl
    countFits := fun _ => Nat.zero_le _
    commitFits := nofun
    countAwaiting := fun _ => rfl
    seqTracksCount := by simp
    offersEmittable := fun _ => .inl rfl
    regionFits := fun _ => hw
    regionOrdinary := fun _ => hd
    resultNone := fun _ => rfl
    resultDone := nofun
    resultAborted := nofun }

/-- While the block is not busy the buffer registers are free, but for the width of `BUF_BASE` (10_state.md R27, R28). -/
theorem BlockInv.setBuffer {s : State} (h : BlockInv s) (hb : s.busy = false) {base len : Word}
    (hw : base.toNat < 2 ^ s.cfg.aw) : BlockInv { s with bufBase := base, bufLen := len } :=
  have idle : ¬ s.busy = true := by simp [hb]
  { h with
    countFits := (absurd · idle)
    commitFits := by
      intro hp
      have hs : s.state = .receiving := h.phaseOnlyReceiving (by simp_all)
      exact absurd (State.busy_of_receiving hs) idle
    regionFits := (absurd · idle)
    regionOrdinary := (absurd · idle)
    baseFits := hw }

/-- The reset values meet the invariant over any canonical memory (10_state.md R42). -/
theorem BlockInv.resetRegisters {s : State} (hm : Mem.wf s.mem) : BlockInv (resetRegisters s) where
  phaseOnlyReceiving := by simp [State.reset]
  frameOffersNothing := by simp [State.reset]
  idxInFrame := by simp [State.reset]
  idxInTrailer := by simp [State.reset]
  idxElsewhere := fun _ => rfl
  countAligned := rfl
  countFits := nofun
  commitFits := nofun
  countAwaiting := nofun
  seqTracksCount := by simp [State.reset]
  offersEmittable := nofun
  regionFits := nofun
  regionOrdinary := nofun
  baseFits := Nat.two_pow_pos _
  memoryCanonical := hm
  resultNone := fun _ => rfl
  resultDone := nofun
  resultAborted := nofun
  timerFits := fun _ => Nat.two_pow_pos _

theorem writeInFlight_mem_wf {s : State} (h : Mem.wf s.mem) : Mem.wf (writeInFlight s).mem := by
  rcases writeInFlight_cases s with ⟨-, e⟩ | ⟨-, m, rfl | rfl, e⟩ <;> rw [e]
  · exact h
  · exact h
  · exact Mem.write_wf _ _ h

/-! ## Every operation a step can run, and every step -/

/-- An operation that an event selects keeps the invariant. (TX_CAN run by itself in CRCL would offer a byte inside a frame;
no event selects it, log 7.) -/
theorem Effect.blockInv {i : Instr} {s t : State} (he : Effect i s t) (h : BlockInv s) {e : Event}
    (hi : encode i = some e) : BlockInv t := by
  cases he with
  | soh _ hs e =>
    obtain ⟨hs, -, ht⟩ := hs
    exact e ▸ (h.recordCtrl _).startFrame hs ht
  | eot _ hs e =>
    obtain ⟨hs, hp, -⟩ := hs
    exact e ▸ (h.recordCtrl _).endTransmission hs hp
  | canRx _ _ e => exact e ▸ (h.recordCtrl _).abort (by decide)
  | escRx _ _ e => exact e ▸ (h.recordCtrl _).abort (by decide)
  | unrecognised b _ _ e =>
    rcases e with rfl | rfl
    · exact (h.recordCtrl b).restartWait
    · exact (h.recordCtrl b).abort (by decide)
  | handshakeReply b _ hs e =>
    obtain ⟨hs, ht⟩ := hs
    have hp := h.phase_of_awaiting hs
    exact e ▸ (h.setReceiving hs).dispatchCtrl rfl hp ht b
  | seq b _ hs e =>
    obtain ⟨hs, hp, ht⟩ := hs
    exact e ▸ ((h.setRecord b _ _ _ _ _).readFrame (ph := .seqc) hs ht
      ⟨by simp, by simp, fun _ => h.idxElsewhere (by simp [hp])⟩ (by simp)).restartWait
  | seqc b _ hs e =>
    obtain ⟨hs, -, ht⟩ := hs
    exact e ▸ ((h.setRecord _ b _ _ _ _).readFrame (ph := .data) (i := 0) hs ht
      ⟨by simp, by simp, by simp⟩ (by simp)).restartWait
  | data b _ hs hx e =>
    obtain ⟨hs, -, ht⟩ := hs
    refine e ▸ ((h.setRecord _ _ _ (crc16Update s.calcCrc b) _ (s.pkt.setIfInBounds s.idx.toNat b)).readFrame
      (ph := if s.idx + 1 = 128 then .crch else .data) (i := s.idx + 1) hs ht ?_ (by split <;> simp)).restartWait
    split
    · exact ⟨by simp, fun _ => ‹_›, by simp⟩
    · exact ⟨fun _ => by bv_omega, by simp, by simp⟩
  | crch b _ hs e =>
    obtain ⟨hs, hp, ht⟩ := hs
    exact e ▸ ((h.setRecord _ _ _ _ (b ++ s.rxCrc.extractLsb' 0 8) _).readFrame (ph := .crcl) hs ht
      ⟨by simp, fun _ => h.idxInTrailer (by simp [hp]), by simp⟩ (by simp)).restartWait
  | accepted c _ hs _ hl e =>
    obtain ⟨hs, -, ht⟩ := hs
    exact e ▸ (h.setRecord _ _ _ _ c _).setPosition (ph := .commit) (i := 0) hs ht
      ⟨by simp, by simp, by simp⟩ (fun _ => hl)
  | rejected c cause _ hs e => exact e ▸ (h.setRecord _ _ _ _ c _).rejectFrame hs.1 cause
  | commitStep _ hc e => exact e ▸ h.commitByte hc
  | commitEnd hi' _ _ =>
    subst hi'
    cases hi
  | emits b hi' _ _ _ =>
    rcases hi' with rfl | rfl | rfl | rfl <;> cases hi
  | pollTimeout _ hs e =>
    obtain ⟨hs, -⟩ := hs
    have hp := h.phase_of_awaiting hs
    have hr := h.regionRuns (State.busy_of_awaiting hs)
    exact e ▸ h.timerExpired.emit hp ⟨hr.holdsCount, hr.fits, hr.ordinary⟩ (.inl rfl)
  | rxTimeout _ _ e => exact e ▸ h.timerExpired.abort (by decide)
  | rxErrorAwait _ hs e => exact e ▸ (h.setReceiving hs.1).abort (by decide)
  | rxError _ _ e => exact e ▸ h.abort (by decide)
  | txTake _ _ e => exact e ▸ h.takeByte
  | reset _ e => exact e ▸ .resetRegisters (writeInFlight_mem_wf h.memoryCanonical)
  | opened _ _ _ _ hr hd e => exact e ▸ h.openSession hr hd
  | regRead v _ e => exact e ▸ h.setReturned v _ _ _
  | ignored _ _ e => exact e ▸ h
  | bufBase v _ hb e => exact e ▸ h.setBuffer hb (addressBits_lt _ v)
  | bufLen v _ hb e => exact e ▸ h.setBuffer hb h.baseFits
  | crcUpdate acc b _ e => exact e ▸ h.setReturned _ _ _ _

theorem step_blockInv {s t : State} (h : BlockInv s) (hst : step s = .next t) : BlockInv t := by
  obtain ⟨-, es, n, d, p, hn, -, hcases⟩ := step_cases hst
  have ht := h.taken hn es d p
  rcases hcases with ⟨i, e, -, hi, -, hx⟩ | ⟨addr, -, hr⟩ | ⟨addr, v, -, hw⟩ | rfl
  · exact (exec_effect hx).blockInv ht hi
  · obtain ⟨v, k, rfl⟩ := hostMemRead_next hr
    exact ht.setReturned _ v _ k
  · obtain ⟨-, rfl⟩ := hostMemWrite_next hw
    exact ht.write addr.toNat v
  · exact ht

/-- Settles O3: an operation that an event selects, a host access and a silent cycle each keep the invariant, and a step is
one of these. -/
theorem everyStepKeepsTheBlockInvariant : Obligations.EveryStepKeepsTheBlockInvariant :=
  fun _ _ => step_blockInv

end Sys2Proof.Machine

/-! The record a frame makes of itself (10_state.md R33, 41_packet_reader.md R140): the accumulator folds the payload as it
arrives, so an update keeps the record unless it moves `PHASE` or writes a register of the record (O4). -/

namespace Sys2Proof.Machine

/-- In `PHASE = CTRL` nothing is recorded. -/
theorem FrameRecord.of_ctrl {s : State} (hp : s.phase = .ctrl) : FrameRecord s := by
  constructor <;> simp [hp]

/-- The record is about `PHASE`, `IDX` and the registers of the frame alone. -/
theorem FrameRecord.setOthers {s t : State} (h : FrameRecord s)
    (e : t = { t with
      phase := s.phase, idx := s.idx, expSeq := s.expSeq, rxSeq := s.rxSeq, rxSeqc := s.rxSeqc, calcCrc := s.calcCrc,
      rxCrc := s.rxCrc, pkt := s.pkt }) : FrameRecord t := by
  rw [e]
  exact { h with }

/-- The accumulator after one more payload byte (41_packet_reader.md R136, 40_crc_engine.md R111). -/
theorem crc16Update_staged (pkt : Vector Byte 128) {k : Nat} (hk : k < 128) (b : Byte) :
    crc16Update (crc16 crcInit (pkt.toList.take k)) b =
      crc16 crcInit ((pkt.setIfInBounds k b).toList.take (k + 1)) := by
  have htake : (pkt.setIfInBounds k b).toList.take (k + 1) = pkt.toList.take k ++ [b] := by
    simp [Vector.toList_setIfInBounds, List.take_add_one, List.take_set_of_le, hk]
  rw [htake, crc16_concat]

/-- A CommitStep moves `IDX`, which COMMIT's record does not read, or leaves COMMIT. -/
theorem FrameRecord.commitByte {s : State} (h : FrameRecord s) (hc : s.position.committing = true) :
    FrameRecord (commitByte s) := by
  obtain ⟨-, hp, -⟩ := s.committing_iff.1 hc
  rcases commitByte_cases s with ⟨-, e⟩ | ⟨-, e⟩ <;> rw [e]
  · exact .of_ctrl rfl
  · exact { h with payload := by simp [hp] }

theorem FrameRecord.startFrame (s : State) : FrameRecord (startFrame s) := by
  constructor <;> simp

theorem FrameRecord.dispatchCtrl {s : State} (h : FrameRecord s) (b : Byte) : FrameRecord (dispatchCtrl b s) := by
  rcases dispatchCtrl_cases b s with e | e | ⟨c, -, e⟩ | e <;> rw [e]
  · exact .startFrame _
  · exact h.setOthers rfl
  · exact .of_ctrl rfl
  · exact h.setOthers rfl

/-- A payload byte extends the staged payload by one; the 128th completes it (41_packet_reader.md R136). -/
theorem FrameRecord.stagePayload {s : State} (h : FrameRecord s) (hp : s.phase = .data) (hx : s.idx.toNat < 128)
    (b : Byte) : FrameRecord { s with
      pkt := s.pkt.setIfInBounds s.idx.toNat b
      calcCrc := crc16Update s.calcCrc b
      idx := s.idx + 1
      phase := if s.idx + 1 = 128 then .crch else .data } := by
  have folded := crc16Update_staged s.pkt hx b
  rw [← h.payload hp] at folded
  have hidx : (s.idx + 1).toNat = s.idx.toNat + 1 := by bv_omega
  split
  · rename_i hlast
    have hlen : s.idx.toNat + 1 = 128 := by rw [← hidx, hlast]; rfl
    rw [hlen, List.take_of_length_le (by simp)] at folded
    exact { header := by simp, payload := by simp, accepted := by simp, trailer := fun _ => folded }
  · rw [← hidx] at folded
    exact { header := by simp, trailer := by simp, accepted := by simp, payload := fun _ => folded }

/-- An operation that an event selects keeps the record. (ACCEPT run by itself does not check the frame; no event selects it,
log 7.) -/
theorem Effect.frameRecord {i : Instr} {s t : State} (he : Effect i s t) (h : FrameRecord s) {e : Event}
    (hi : encode i = some e) : FrameRecord t := by
  cases he with
  | soh _ _ e => exact e ▸ .startFrame _
  | unrecognised b _ _ e =>
    rcases e with rfl | rfl
    · exact h.setOthers rfl
    · exact .of_ctrl rfl
  | handshakeReply b _ _ e =>
    have h' : FrameRecord { s with state := .receiving } := h.setOthers rfl
    exact e ▸ h'.dispatchCtrl b
  | seq b _ hs e =>
    subst e
    exact { header := fun _ => h.header (.inl hs.2.1), payload := by simp, trailer := by simp, accepted := by simp }
  | seqc b _ hs e =>
    subst e
    exact { header := by simp, trailer := by simp, accepted := by simp
            payload := fun _ => by simpa [crc16_nil] using h.header (.inr hs.2.1) }
  | data b _ hs hx e => exact e ▸ (h.stagePayload hs.2.1 hx b).setOthers rfl
  | crch b _ hs e =>
    subst e
    exact { header := by simp, payload := by simp, accepted := by simp
            trailer := fun _ => h.trailer (.inl hs.2.1) }
  | accepted c hi' hs hv _ e =>
    subst e
    have checked : i ≠ .accept := by
      rintro rfl
      cases hi
    exact { header := by simp, payload := by simp
            trailer := fun _ => h.trailer (.inr (.inl hs.2.1))
            accepted := fun _ => hv checked }
  | commitStep _ hc e => exact e ▸ h.commitByte hc
  | emits b _ _ _ e => exact e ▸ h.setOthers rfl
  | txTake _ _ e =>
    obtain ⟨n, -, e'⟩ := takeByte_cases s
    rw [e, e']
    exact h.setOthers rfl
  | eot _ _ e => exact e ▸ h.setOthers rfl
  | pollTimeout _ _ e => exact e ▸ h.setOthers rfl
  | regRead _ _ e => exact e ▸ h.setOthers rfl
  | ignored _ _ e => exact e ▸ h
  | bufBase _ _ _ e => exact e ▸ h.setOthers rfl
  | bufLen _ _ _ e => exact e ▸ h.setOthers rfl
  | crcUpdate _ _ _ e => exact e ▸ h.setOthers rfl
  | canRx _ _ e => exact e ▸ .of_ctrl rfl
  | escRx _ _ e => exact e ▸ .of_ctrl rfl
  | rejected _ _ _ _ e => exact e ▸ .of_ctrl rfl
  | commitEnd _ _ e => exact e ▸ .of_ctrl rfl
  | rxTimeout _ _ e => exact e ▸ .of_ctrl rfl
  | rxErrorAwait _ _ e => exact e ▸ .of_ctrl rfl
  | rxError _ _ e => exact e ▸ .of_ctrl rfl
  | reset _ e => exact e ▸ .of_ctrl rfl
  | opened _ _ _ _ _ _ e => exact e ▸ .of_ctrl rfl

theorem step_frameRecord {s t : State} (h : FrameRecord s) (hst : step s = .next t) : FrameRecord t := by
  obtain ⟨-, es, n, d, p, -, -, hcases⟩ := step_cases hst
  have ht : FrameRecord (s.taken es n d p) := h.setOthers rfl
  rcases hcases with ⟨i, e, -, hi, -, hx⟩ | ⟨addr, -, hr⟩ | ⟨addr, v, -, hw⟩ | rfl
  · exact (exec_effect hx).frameRecord ht hi
  · obtain ⟨v, k, rfl⟩ := hostMemRead_next hr
    exact ht.setOthers rfl
  · obtain ⟨-, rfl⟩ := hostMemWrite_next hw
    exact ht.setOthers rfl
  · exact ht

/-- Settles O4: an operation that an event selects keeps the record, and a host access or a silent cycle writes none of its
registers. -/
theorem everyStepKeepsFrameRecord : Obligations.EveryStepKeepsFrameRecord :=
  fun _ _ => step_frameRecord

/-- Settles O1: each register of the table, as a closed value. -/
theorem resetLeavesTheTableOfValues : Obligations.ResetLeavesTheTableOfValues := by
  unfold Obligations.ResetLeavesTheTableOfValues
  decide

/-- Settles O2: the state after reset is reset applied to itself, with no frame begun. -/
theorem resetMeetsTheInvariants : Obligations.ResetMeetsTheInvariants :=
  ⟨.resetRegisters (s := .reset) State.reset_mem_wf, .of_ctrl rfl⟩

end Sys2Proof.Machine

/-! What each operation leaves of `COUNT`, the buffer registers and the transmit stream, from the effects of `exec`
(O50, O52, O54). -/

namespace Sys2Proof.Machine

/-! ## The shared operations that choose between updates -/

@[simp] theorem dispatchCtrl_bufBase (b : Byte) (s : State) : (dispatchCtrl b s).bufBase = s.bufBase := by
  rcases dispatchCtrl_cases b s with e | e | ⟨c, -, e⟩ | e <;> simp [e]

@[simp] theorem dispatchCtrl_bufLen (b : Byte) (s : State) : (dispatchCtrl b s).bufLen = s.bufLen := by
  rcases dispatchCtrl_cases b s with e | e | ⟨c, -, e⟩ | e <;> simp [e]

@[simp] theorem dispatchCtrl_count (b : Byte) (s : State) : (dispatchCtrl b s).count = s.count := by
  rcases dispatchCtrl_cases b s with e | e | ⟨c, -, e⟩ | e <;> simp [e]

@[simp] theorem dispatchCtrl_txStream (b : Byte) (s : State) : (dispatchCtrl b s).txStream = s.txStream := by
  rcases dispatchCtrl_cases b s with e | e | ⟨c, -, e⟩ | e <;> simp [e]

@[simp] theorem commitByte_bufBase (s : State) : (commitByte s).bufBase = s.bufBase := by
  rcases commitByte_cases s with ⟨-, e⟩ | ⟨-, e⟩ <;> simp [e]

@[simp] theorem commitByte_bufLen (s : State) : (commitByte s).bufLen = s.bufLen := by
  rcases commitByte_cases s with ⟨-, e⟩ | ⟨-, e⟩ <;> simp [e]

@[simp] theorem commitByte_txStream (s : State) : (commitByte s).txStream = s.txStream := by
  rcases commitByte_cases s with ⟨-, e⟩ | ⟨-, e⟩ <;> simp [e]

@[simp] theorem takeByte_bufBase (s : State) : (takeByte s).bufBase = s.bufBase := by
  obtain ⟨n, -, e⟩ := takeByte_cases s
  rw [e]

@[simp] theorem takeByte_bufLen (s : State) : (takeByte s).bufLen = s.bufLen := by
  obtain ⟨n, -, e⟩ := takeByte_cases s
  rw [e]

@[simp] theorem takeByte_count (s : State) : (takeByte s).count = s.count := by
  obtain ⟨n, -, e⟩ := takeByte_cases s
  rw [e]

@[simp] theorem takeByte_txStream (s : State) : (takeByte s).txStream = s.txStream ++ [s.txb] := by
  obtain ⟨n, -, e⟩ := takeByte_cases s
  rw [e]

@[simp] theorem writeInFlight_txStream (s : State) : (writeInFlight s).txStream = s.txStream := by
  rcases writeInFlight_cases s with ⟨-, e⟩ | ⟨-, m, -, e⟩ <;> rw [e]

/-! ## `COUNT` -/

/-- `COUNT` moves where a session opens, where a frame ends and at reset (10_state.md R29). -/
theorem Effect.count {i : Instr} {s t : State} (he : Effect i s t) :
    t.count = s.count ∨ ((∃ v, i = .start v) ∧ t.count = 0) ∨ (i = .reset ∧ t.count = 0) ∨
    ((i = .commitStep ∨ i = .commitEnd) ∧ t.count = s.count + 128 ∧ t.expSeq = s.expSeq + 1) := by
  cases he
  case opened v hi _ _ _ _ e => exact .inr (.inl ⟨⟨v, hi⟩, by simp [e]⟩)
  case reset hi e => exact .inr (.inr (.inl ⟨hi, by simp [e, State.reset]⟩))
  case commitEnd hi _ e => exact .inr (.inr (.inr ⟨.inr hi, by simp [e]⟩))
  case commitStep hi _ e =>
    rcases commitByte_cases s with ⟨-, e'⟩ | ⟨-, e'⟩
    · exact .inr (.inr (.inr ⟨.inl hi, by simp [e, e']⟩))
    · exact .inl (by simp [e, e'])
  case unrecognised b _ _ e => rcases e with rfl | rfl <;> exact .inl rfl
  case handshakeReply b _ _ e => exact .inl (by simp [e])
  case txTake _ _ e => exact .inl (by simp [e])
  all_goals
    rename_i e
    subst e
    exact .inl rfl

/-- Settles O50: the effects of `exec`, sorted by what they do to `COUNT`. -/
theorem onlyFramesAdvanceCount : Obligations.OnlyFramesAdvanceCount :=
  fun _ _ _ h => (exec_effect h).count

/-! ## `BUF_BASE` and `BUF_LEN` -/

/-- The buffer registers move at a host write to them, which is ignored while busy, and at reset (10_state.md R27, R28). -/
theorem Effect.buffer {i : Instr} {s t : State} (he : Effect i s t) (hi : i ≠ .reset) :
    (t.bufBase = s.bufBase ∨ (s.busy = false ∧ ∃ v, i = .bufBaseAccess (.write v))) ∧
    (t.bufLen = s.bufLen ∨ (s.busy = false ∧ ∃ v, i = .bufLenAccess (.write v))) := by
  cases he
  case reset hi' _ => exact absurd hi' hi
  case bufBase v hi' hb e => exact ⟨.inr ⟨hb, v, hi'⟩, .inl (by rw [e])⟩
  case bufLen v hi' hb e => exact ⟨.inl (by rw [e]), .inr ⟨hb, v, hi'⟩⟩
  case unrecognised b _ _ e => rcases e with rfl | rfl <;> exact ⟨.inl rfl, .inl rfl⟩
  case handshakeReply b _ _ e => exact ⟨.inl (by simp [e]), .inl (by simp [e])⟩
  case commitStep _ _ e => exact ⟨.inl (by simp [e]), .inl (by simp [e])⟩
  case txTake _ _ e => exact ⟨.inl (by simp [e]), .inl (by simp [e])⟩
  all_goals
    rename_i e
    subst e
    exact ⟨.inl rfl, .inl rfl⟩

/-- Settles O52: the effects of `exec`, sorted by what they do to the buffer registers. -/
theorem onlyTheHostChangesTheBuffer : Obligations.OnlyTheHostChangesTheBuffer :=
  fun _ _ _ h hi => (exec_effect h).buffer hi

/-! ## The transmit stream -/

/-- Only TX_TAKE appends to the transmit stream, and what it appends is the byte offered (42_transfer_fsm.md R183). -/
theorem Effect.txStream {i : Instr} {s t : State} (he : Effect i s t) :
    t.txStream = s.txStream ∨ (s.txv = true ∧ t.txStream = s.txStream ++ [s.txb]) := by
  cases he
  case txTake _ hv e => exact .inr ⟨hv, by simp [e]⟩
  case unrecognised b _ _ e => rcases e with rfl | rfl <;> exact .inl rfl
  case handshakeReply b _ _ e => exact .inl (by simp [e])
  case commitStep _ _ e => exact .inl (by simp [e])
  case reset _ e => exact .inl (by simp [e])
  all_goals
    rename_i e
    subst e
    exact .inl rfl

theorem step_txStream {s t : State} (h : step s = .next t) :
    t.txStream = s.txStream ∨ (s.txv = true ∧ t.txStream = s.txStream ++ [s.txb]) := by
  obtain ⟨-, es, n, d, p, -, -, ⟨i, e, -, -, -, hx⟩ | ⟨addr, -, hr⟩ | ⟨addr, v, -, hw⟩ | rfl⟩ := step_cases h
  · exact (exec_effect hx).txStream
  · obtain ⟨v, k, rfl⟩ := hostMemRead_next hr
    exact .inl rfl
  · obtain ⟨-, rfl⟩ := hostMemWrite_next hw
    exact .inl rfl
  · exact .inl rfl

/-- Settles O54: a step appends at most the byte offered, and the invariant says which bytes are offered. -/
theorem onlyCAckAndCanAreSent : Obligations.OnlyCAckAndCanAreSent := by
  intro s t h hst
  rcases step_txStream hst with kept | ⟨hv, sent⟩
  · exact .inl kept
  · exact .inr ⟨s.txb, h.offersEmittable hv, sent⟩

end Sys2Proof.Machine

/-! The two registers that operations do not read: `TXB` while `TXV = 0`, and `PKT` outside a commit. Run at a state in
which these two have other values, an operation answers a state that differs in nothing else (O58, O59). -/

namespace Sys2Proof.Machine

/-- The state with other values of `TXB` and `PKT`. -/
def State.withHidden (s : State) (b : Byte) (p : Vector Byte 128) : State := { s with txb := b, pkt := p }

/-- How the answers `t` at `s` and `u` at `s.withHidden b p` can differ. -/
structure AlikeButHidden (s : State) (b : Byte) (p : Vector Byte 128) (t u : State) : Prop where
  rest : u = { t with txb := u.txb, pkt := u.pkt, mem := u.mem }
  txb : u.txb = t.txb ∨ u.txb = b
  pkt : p = s.pkt → u.pkt = t.pkt
  mem : p = s.pkt ∨ s.position.committing = false → u.mem = t.mem

section
variable {r s t : State} {b : Byte} {p : Vector Byte 128}

@[simp] theorem State.withHidden_position : (s.withHidden b p).position = s.position := rfl

/-- An update that writes neither register. -/
theorem AlikeButHidden.kept (ht : t.pkt = s.pkt) : AlikeButHidden s b p t (t.withHidden b p) :=
  ⟨rfl, .inr rfl, fun h => h.trans ht.symm, fun _ => rfl⟩

/-- An update that offers a byte. -/
theorem AlikeButHidden.offered (ht : t.pkt = s.pkt) : AlikeButHidden s b p t (t.withHidden t.txb p) :=
  ⟨rfl, .inl rfl, fun h => h.trans ht.symm, fun _ => rfl⟩

/-- A choice that both states make alike. -/
theorem AlikeButHidden.ite {c : Prop} {hc hc' : Decidable c} {t₁ t₂ u₁ u₂ : State} (h₁ : AlikeButHidden s b p t₁ u₁)
    (h₂ : AlikeButHidden s b p t₂ u₂) : AlikeButHidden s b p (@ite _ c hc t₁ t₂) (@ite _ c hc' u₁ u₂) := by
  by_cases h : c
  · rwa [if_pos h, if_pos h]
  · rwa [if_neg h, if_neg h]

/-- The guard reads the position and the parameters alone. -/
theorem guarded_withHidden {i : Instr} {o o' : Answer} (h : guarded i s o = .next t)
    (ho : o = .next t → ∃ u, o' = .next u ∧ AlikeButHidden s b p t u) :
    ∃ u, guarded i (s.withHidden b p) o' = .next u ∧ AlikeButHidden s b p t u := by
  obtain ⟨hadm, hctx, h⟩ := guarded_next h
  rw [guarded_pass (s := s.withHidden b p) hadm hctx]
  exact ho h

/-! ## The shared operations that choose between updates -/

theorem unrecognisedCtrl_alike (hr : r.pkt = s.pkt) :
    AlikeButHidden s b p (unrecognisedCtrl r) (unrecognisedCtrl (r.withHidden b p)) := by
  rcases unrecognisedCtrl_cases r with ⟨h, e⟩ | ⟨h, e⟩
  · rw [e, unrecognisedCtrl_discard (s := r.withHidden b p) h]
    exact .kept hr
  · rw [e, unrecognisedCtrl_abort (s := r.withHidden b p) h]
    exact .kept hr

theorem dispatchCtrl_alike (c : Byte) (hr : r.pkt = s.pkt) :
    AlikeButHidden s b p (dispatchCtrl c r) (dispatchCtrl c (r.withHidden b p)) := by
  unfold dispatchCtrl
  split
  · exact .kept hr
  split
  · exact .offered hr
  split
  · exact .kept hr
  split
  · exact .kept hr
  · exact unrecognisedCtrl_alike (r := recordCtrl c r) hr

theorem acceptFrame_alike (hr : r.pkt = s.pkt) (h : acceptFrame r = .next t) :
    ∃ u, acceptFrame (r.withHidden b p) = .next u ∧ AlikeButHidden s b p t u := by
  rcases acceptFrame_cases r with ⟨-, e⟩ | ⟨fits, e⟩ <;> rw [e] at h <;> cases h
  rcases acceptFrame_cases (r.withHidden b p) with ⟨overrun, -⟩ | ⟨-, e'⟩
  · exact absurd overrun (Nat.not_lt.2 fits)
  · exact ⟨_, e', .kept hr⟩

/-- The checks of validation read neither register (41_packet_reader.md R140). -/
theorem validateFrame_alike (hr : r.pkt = s.pkt) (h : validateFrame r = .next t) :
    ∃ u, validateFrame (r.withHidden b p) = .next u ∧ AlikeButHidden s b p t u := by
  by_cases hc : r.rxCrc = r.calcCrc
  · by_cases hs : r.rxSeq = r.expSeq
    · by_cases hp : r.rxSeqc = ~~~r.rxSeq
      · rw [validateFrame_pass hc hs hp] at h
        rw [validateFrame_pass (s := r.withHidden b p) hc hs hp]
        exact acceptFrame_alike hr h
      · rw [validateFrame_badSeqc hc hs hp] at h
        cases h
        exact ⟨_, validateFrame_badSeqc (s := r.withHidden b p) hc hs hp, .offered hr⟩
    · rw [validateFrame_badSeq hc hs] at h
      cases h
      exact ⟨_, validateFrame_badSeq (s := r.withHidden b p) hc hs, .offered hr⟩
  · rw [validateFrame_badCrc hc] at h
    cases h
    exact ⟨_, validateFrame_badCrc (s := r.withHidden b p) hc, .offered hr⟩

/-- A CommitStep stores another byte where `PKT` is another (41_packet_reader.md R150). -/
theorem commitByte_alike (hc : s.position.committing = true) :
    AlikeButHidden s b p (commitByte s) (commitByte (s.withHidden b p)) := by
  have stored : p = s.pkt ∨ s.position.committing = false →
      (commitWrite (s.withHidden b p)).mem = (commitWrite s).mem := by
    rintro (rfl | hn)
    · rfl
    · simp [hc] at hn
  unfold commitByte
  exact .ite ⟨rfl, .inl rfl, id, stored⟩ ⟨rfl, .inr rfl, id, stored⟩

/-- The write in flight is a write of `PKT`; reset overwrites both registers (70_reset_and_hazards.md R270, R271). -/
theorem reset_alike :
    AlikeButHidden s b p (resetRegisters (writeInFlight s)) (resetRegisters (writeInFlight (s.withHidden b p))) := by
  by_cases hc : s.position.committing = true
  · simp only [writeInFlight, State.withHidden_position, hc, if_true]
    refine ⟨rfl, .inl rfl, fun _ => rfl, ?_⟩
    rintro (rfl | hn)
    · rfl
    · simp [hc] at hn
  · simp only [writeInFlight, State.withHidden_position, hc]
    exact ⟨rfl, .inl rfl, fun _ => rfl, fun _ => rfl⟩

/-- TX_TAKE reads `TXB`, and only there does an operation read it. -/
theorem takeByte_alike : AlikeButHidden s s.txb p (takeByte s) (takeByte (s.withHidden s.txb p)) := by
  unfold takeByte
  exact .ite (.ite (.kept rfl) (.kept rfl)) (.ite (.kept rfl) (.kept rfl))

theorem startTransfer_alike (h : startTransfer s = .next t) :
    ∃ u, startTransfer (s.withHidden b p) = .next u ∧ AlikeButHidden s b p t u := by
  obtain ⟨hw, hd, rfl⟩ := startTransfer_next h
  exact ⟨_, startTransfer_open (s := s.withHidden b p) hw hd, .offered rfl⟩

end

/-! ## Every operation -/

/-- An operation reads `TXB` only to send it, and `PKT` only to write it to memory. -/
theorem exec_withHidden {i : Instr} {s t : State} {b : Byte} {p : Vector Byte 128} (hb : s.txv = true → b = s.txb)
    (h : exec i s = .next t) : ∃ u, exec i (s.withHidden b p) = .next u ∧ AlikeButHidden s b p t u := by
  cases i
  case soh | canRx | escRx | seq | seqc | crch | rxTimeout | rxErrorAwait | rxError | ctrlRead | statusRead |
      statusWrite | crcUpdate =>
    exact guarded_withHidden h fun e => by
      cases e
      exact ⟨_, rfl, .kept rfl⟩
  case eot | reject | commitEnd | txC | txAckFrame | txAckEot | txCan | pollTimeout =>
    exact guarded_withHidden h fun e => by
      cases e
      exact ⟨_, rfl, .offered rfl⟩
  case otherCtrl | nakRx | ackRx | stxRx | cRx =>
    exact guarded_withHidden h fun e => by
      cases e
      exact ⟨_, rfl, unrecognisedCtrl_alike rfl⟩
  case handshakeReply c =>
    exact guarded_withHidden h fun e => by
      cases e
      exact ⟨_, rfl, dispatchCtrl_alike c rfl⟩
  case data c =>
    exact guarded_withHidden h fun e => by
      cases e
      exact ⟨_, rfl, rfl, .inr rfl, fun hp => by rw [hp]; rfl, fun _ => rfl⟩
  case crcl c => exact guarded_withHidden h (validateFrame_alike rfl)
  case validate => exact guarded_withHidden h (validateFrame_alike rfl)
  case accept => exact guarded_withHidden h (acceptFrame_alike rfl)
  case commitStep =>
    obtain ⟨-, hc, -⟩ := guarded_next h
    exact guarded_withHidden h fun e => by
      cases e
      exact ⟨_, rfl, commitByte_alike hc⟩
  case txTake =>
    obtain ⟨-, hv, -⟩ := guarded_next h
    obtain rfl := hb hv
    exact guarded_withHidden h fun e => by
      cases e
      exact ⟨_, rfl, takeByte_alike⟩
  case reset =>
    exact guarded_withHidden h fun e => by
      cases e
      exact ⟨_, rfl, reset_alike⟩
  case start v =>
    refine guarded_withHidden h fun e => ?_
    by_cases ignored : (!v.getLsbD 0 || s.busy) = true
    · rw [if_pos ignored] at e
      cases e
      exact ⟨_, if_pos ignored, .kept rfl⟩
    · rw [if_neg ignored] at e
      obtain ⟨u, hu, alike⟩ := startTransfer_alike e
      exact ⟨u, (if_neg ignored).trans hu, alike⟩
  case bufBaseAccess a | bufLenAccess a =>
    refine guarded_withHidden h fun e => ?_
    cases a
    case read =>
      cases e
      exact ⟨_, rfl, .kept rfl⟩
    case write =>
      cases e
      exact ⟨_, rfl, .ite (.kept rfl) (.kept rfl)⟩
  case countRead a | seqRead a | crcRead a | reserved1c a =>
    refine guarded_withHidden h fun e => ?_
    cases a <;> cases e <;> exact ⟨_, rfl, .kept rfl⟩

/-- Settles O58: with `TXV = 0` nothing is sent, so no operation reads `TXB`. -/
theorem txbIsNotReadWhileNothingIsOffered : Obligations.TxbIsNotReadWhileNothingIsOffered := by
  intro i s t b hv h
  obtain ⟨u, hu, alike⟩ := exec_withHidden (b := b) (p := s.pkt) (by simp [hv]) h
  have rest := alike.rest
  rw [alike.pkt rfl, alike.mem (.inl rfl)] at rest
  refine ⟨u, hu, ?_⟩
  rcases alike.txb with e | e <;> rw [e] at rest
  · exact .inl rest
  · exact .inr rest

/-- Settles O59: none of the words the host can read is made of `PKT`. -/
theorem theStagingBufferIsHidden : Obligations.TheStagingBufferIsHidden := by
  intro i s t p h
  obtain ⟨u, hu, alike⟩ := exec_withHidden (b := s.txb) (p := p) (fun _ => rfl) h
  have same {α : Type} (f : State → α) := congrArg f alike.rest
  exact ⟨u, hu, same State.rdata, same State.statusWord, same State.seqWord, same State.crcWord, same State.count,
    same State.txStream, fun hc => alike.mem (.inr hc)⟩

end Sys2Proof.Machine

/-! Destination memory under the block and the host (20_memory.md): where a CommitStep writes, the memory that a commit
in progress has written, what a step can do to memory, and a host access as a step (O26, O27, O34, O40, O41, O49). -/

namespace Sys2Proof.Machine

/-! ## The destination region and its addresses -/

theorem State.inRegion_iff (s : State) (a : Nat) :
    s.inRegion a = true ↔ s.bufBase.toNat ≤ a ∧ a < s.bufBase.toNat + s.bufLen.toNat := by
  simp [State.inRegion]

/-- The address of a CommitStep is the plain sum where that needs no more than `AW` bits (20_memory.md R62). -/
theorem State.destAddress_eq {s : State} (h : s.bufBase.toNat + s.count.toNat + s.idx.toNat < 2 ^ s.cfg.aw) :
    s.destAddress = s.bufBase.toNat + s.count.toNat + s.idx.toNat :=
  Nat.mod_eq_of_lt h

/-- Settles O27: the frame fits behind `COUNT` in the region (R142), and the region of a busy block in `2^AW` (R61). -/
theorem commitAddressLiesInTheRegion : Obligations.CommitAddressLiesInTheRegion := by
  intro s h hc
  obtain ⟨hs, hp, hi⟩ := s.committing_iff.1 hc
  have frameFits := h.commitFits hp
  have regionFits := h.regionFits (State.busy_of_receiving hs)
  have noWrap : s.bufBase.toNat + s.count.toNat + s.idx.toNat < 2 ^ s.cfg.aw := by omega
  rw [State.destAddress_eq noWrap, State.inRegion_iff]
  exact ⟨rfl, ⟨by omega, by omega⟩, noWrap⟩

/-! ## A commit in progress -/

/-- `m` is the memory of `s` with the first `k` staged bytes written at `BUF_BASE + COUNT` (20_memory.md R65). -/
structure CommittedPrefix (s : State) (k : Nat) (m : Mem) : Prop where
  written : ∀ j, j < k → Mem.read m (s.bufBase.toNat + s.count.toNat + j) = s.pkt[j]?
  kept : ∀ a, a < s.bufBase.toNat + s.count.toNat ∨ s.bufBase.toNat + s.count.toNat + k ≤ a →
    Mem.read m a = Mem.read s.mem a

theorem CommittedPrefix.zero (s : State) : CommittedPrefix s 0 s.mem :=
  ⟨by simp, fun _ _ => rfl⟩

/-- The next byte of the payload extends what is written by one. -/
theorem CommittedPrefix.write {s : State} {k : Nat} {m : Mem} (h : CommittedPrefix s k m) (hk : k < 128) :
    CommittedPrefix s (k + 1) (Mem.write m (s.bufBase.toNat + s.count.toNat + k) s.pkt[k]) where
  written j hj := by
    rw [Mem.read_write]
    split
    · obtain rfl : j = k := by omega
      simp [hk]
    · exact h.written j (by omega)
  kept a ha := by
    rw [Mem.read_write_other (by omega)]
    exact h.kept a (by omega)

/-- `s` after `k` CommitSteps that have made memory `m`. -/
def State.afterCommits (s : State) (k : Nat) (m : Mem) : State := { s with mem := m, idx := BitVec.ofNat 8 k }

@[simp] theorem State.afterCommits_bufBase (s : State) (k : Nat) (m : Mem) :
    (s.afterCommits k m).bufBase = s.bufBase := rfl

@[simp] theorem State.afterCommits_count (s : State) (k : Nat) (m : Mem) :
    (s.afterCommits k m).count = s.count := rfl

@[simp] theorem State.afterCommits_pkt (s : State) (k : Nat) (m : Mem) : (s.afterCommits k m).pkt = s.pkt := rfl
@[simp] theorem State.afterCommits_cfg (s : State) (k : Nat) (m : Mem) : (s.afterCommits k m).cfg = s.cfg := rfl

theorem State.afterCommits_idx {k : Nat} (hk : k < 128) (s : State) (m : Mem) :
    (s.afterCommits k m).idx.toNat = k :=
  Nat.mod_eq_of_lt (by omega)

/-- A frame that fits below `2^AW` is written without wrapping, byte `k` at offset `k` (20_memory.md R62). -/
theorem commitWrite_afterCommits {s : State} {k : Nat} (hk : k < 128)
    (hfit : s.bufBase.toNat + s.count.toNat + 128 ≤ 2 ^ s.cfg.aw) (m : Mem) :
    commitWrite (s.afterCommits k m) =
      s.afterCommits (k + 1) (Mem.write m (s.bufBase.toNat + s.count.toNat + k) s.pkt[k]) := by
  have hidx := State.afterCommits_idx hk s m
  have address : (s.afterCommits k m).destAddress = s.bufBase.toNat + s.count.toNat + k := by
    have noWrap : s.bufBase.toNat + s.count.toNat + k < 2 ^ s.cfg.aw := by omega
    simpa [hidx] using State.destAddress_eq (s := s.afterCommits k m) (by simpa [hidx] using noWrap)
  have staged : (s.afterCommits k m).stagedByte = s.pkt[k] := by
    simp [State.stagedByte, hidx, hk]
  rw [commitWrite, address, staged]
  simp only [State.afterCommits, BitVec.ofNat_add]
  rfl

/-- Left to itself, the block takes a CommitStep; before the last byte that is the write alone
(41_packet_reader.md R150). -/
theorem step_commitWrite {s : State} (hadm : s.cfg.Admitted) (hq : s.quiet) (hc : s.position.committing = true)
    (hlast : s.idx ≠ 127) : step s = .next (commitWrite s) := by
  rcases commitByte_cases s with ⟨last, -⟩ | ⟨-, e⟩
  · exact absurd last hlast
  · rw [step_commit hadm hq hc, e]

/-- Left to itself, the block writes the payload one byte a step, in order (20_memory.md R65). -/
theorem run_commits {s : State} {k : Nat} (hadm : s.cfg.Admitted) (hs : s.state = .receiving) (hp : s.phase = .commit)
    (hi : s.idx = 0) (hq : s.quiet) (hfit : s.bufBase.toNat + s.count.toNat + 128 ≤ 2 ^ s.cfg.aw) (hk : k ≤ 127) :
    ∃ m, run k s = .next (s.afterCommits k m) ∧ CommittedPrefix s k m := by
  induction k with
  | zero =>
    have start : s.afterCommits 0 s.mem = s := by rw [State.afterCommits, show BitVec.ofNat 8 0 = s.idx from hi.symm]
    exact ⟨s.mem, by rw [run_zero, start], .zero s⟩
  | succ k ih =>
    obtain ⟨m, hrun, committed⟩ := ih (by omega)
    have hidx := State.afterCommits_idx (show k < 128 by omega) s m
    have committing : (s.afterCommits k m).position.committing = true :=
      (State.committing_iff _).2 ⟨hs, hp, by omega⟩
    have hstep := step_commitWrite (s := s.afterCommits k m) hadm hq committing (by bv_omega)
    rw [commitWrite_afterCommits (by omega) hfit] at hstep
    exact ⟨_, (run_succ hrun).trans hstep, committed.write (by omega)⟩

/-- Settles O26: by induction on the number of CommitSteps. -/
theorem commitPrefixIsWrittenInOrder : Obligations.CommitPrefixIsWrittenInOrder := by
  intro s k hadm hs hp hi hq hfit hk
  obtain ⟨m, hrun, committed⟩ := run_commits hadm hs hp hi hq hfit hk
  exact ⟨m, hrun, committed.written, committed.kept⟩

/-! ## What a step can do to memory -/

@[simp] theorem dispatchCtrl_mem (b : Byte) (s : State) : (dispatchCtrl b s).mem = s.mem := by
  rcases dispatchCtrl_cases b s with e | e | ⟨c, -, e⟩ | e <;> simp [e]

@[simp] theorem takeByte_mem (s : State) : (takeByte s).mem = s.mem := by
  obtain ⟨n, -, e⟩ := takeByte_cases s
  rw [e]

/-- An operation writes memory in a commit alone, and there at most the next staged byte: its CommitStep, or the write
in flight at a reset (20_memory.md R60, 70_reset_and_hazards.md R271). -/
theorem Effect.mem {i : Instr} {s t : State} (he : Effect i s t) :
    t.mem = s.mem ∨ (s.position.committing = true ∧ t.mem = Mem.write s.mem s.destAddress s.stagedByte) := by
  cases he
  case commitStep _ hc e => exact .inr ⟨hc, by rw [e, commitByte_mem]⟩
  case reset _ e =>
    rcases writeInFlight_cases s with ⟨-, e'⟩ | ⟨hc, m, hm, e'⟩
    · exact .inl (by simp [e, e'])
    · rcases hm with rfl | rfl
      · exact .inl (by simp [e, e'])
      · exact .inr ⟨hc, by simp [e, e']⟩
  case unrecognised b _ _ e => rcases e with rfl | rfl <;> exact .inl rfl
  case handshakeReply b _ _ e => exact .inl (by simp [e])
  case txTake _ _ e => exact .inl (by simp [e])
  all_goals
    rename_i e
    subst e
    exact .inl rfl

/-- A step leaves memory, or writes one byte: the next of a commit, or one that the host stores outside the region of a
running transfer (20_memory.md R60, R67). -/
theorem step_mem {s t : State} (h : step s = .next t) :
    t.mem = s.mem ∨ (s.position.committing = true ∧ t.mem = Mem.write s.mem s.destAddress s.stagedByte) ∨
    (∃ addr v, .memWrite addr v ∈ s.moves ∧ (s.busy && s.inRegion addr.toNat) = false ∧
      t.mem = Mem.write s.mem addr.toNat v) := by
  obtain ⟨-, es, n, d, p, -, -, ⟨i, e, -, -, -, hx⟩ | ⟨addr, -, hr⟩ | ⟨addr, v, hm, hw⟩ | rfl⟩ := step_cases h
  · exact (exec_effect hx).mem.imp_right .inl
  · obtain ⟨v, k, rfl⟩ := hostMemRead_next hr
    exact .inl rfl
  · obtain ⟨outside, rfl⟩ := hostMemWrite_next hw
    exact .inr (.inr ⟨addr, v, hm, outside, rfl⟩)
  · exact .inl rfl

/-- An address that a write changes is the one written. -/
theorem Mem.eq_of_read_write_ne {m : Mem} {a x : Nat} {v : Byte} (h : Mem.read (Mem.write m a v) x ≠ Mem.read m x) :
    x = a := by
  by_contra hx
  exact h (Mem.read_write_other hx)

/-- Settles O49: a step writes at most one byte, and the address that changed is the one written. -/
theorem onlyCommitsAndTheHostWriteMemory : Obligations.OnlyCommitsAndTheHostWriteMemory := by
  intro s t a h changed
  rcases step_mem h with e | ⟨hc, e⟩ | ⟨addr, v, hm, outside, e⟩ <;> rw [e] at changed
  · exact absurd rfl changed
  · exact .inl ⟨hc, Mem.eq_of_read_write_ne changed⟩
  · obtain rfl := Mem.eq_of_read_write_ne changed
    exact .inr ⟨addr, v, hm, rfl, outside⟩

/-! ## START over a region that is not ordinary memory -/

/-- The region meets a device range where an address lies in both (20_memory.md R64). -/
theorem State.regionHitsDevice_of_mem {s : State} {d : Region} {a : Nat} (hd : d ∈ s.cfg.devices)
    (ha : s.inRegion a = true) (hlo : d.base ≤ a) (hhi : a < d.base + d.size) : s.regionHitsDevice = true := by
  obtain ⟨hbase, hend⟩ := (s.inRegion_iff a).1 ha
  simp only [State.regionHitsDevice, List.any_eq_true, decide_eq_true_eq]
  exact ⟨d, hd, by omega⟩

theorem startTransfer_device {s : State} (hw : s.bufBase.toNat + s.bufLen.toNat ≤ 2 ^ s.cfg.aw)
    (hd : s.regionHitsDevice = true) : startTransfer s = .refused .deviceRegion := by
  simp [startTransfer, s.regionWraps_eq_false.2 hw, hd]

/-- START with `v[0] = 1` and `BUSY = 0` opens a transfer (43_host_interface.md R212). -/
theorem execStart_open {s : State} {v : Word} (hadm : s.cfg.Admitted) (hv : v.getLsbD 0 = true)
    (hb : s.busy = false) : execStart v s = startTransfer s := by
  rw [execStart, guarded_pass (i := .start v) hadm rfl]
  simp [hv, hb]

/-- Settles O34: the wrap check passes, and the region meets the device range. -/
theorem deviceRegionIsRefusedAtStart : Obligations.DeviceRegionIsRefusedAtStart := by
  rintro s v d hadm hv hb hw hd ⟨a, ha, hlo, hhi⟩
  exact (execStart_open hadm hv hb).trans
    (startTransfer_device hw (State.regionHitsDevice_of_mem hd ha hlo hhi))

/-! ## A host access to memory, as a step -/

/-- An access to an address that exists, in ordinary memory, has its effect. -/
theorem hostAccess_pass {a : Nat} {s : State} (hx : a < 2 ^ s.cfg.aw) (hd : isDevice s.cfg a = false) (o : Answer) :
    hostAccess a s o = o := by
  simp [hostAccess, hx, hd]

theorem State.racesCommit_iff (s : State) (a : Nat) :
    s.racesCommit a = true ↔ s.busy = true ∧ s.inRegion a = true ∧ s.bufBase.toNat + s.count.toNat ≤ a := by
  simp [State.racesCommit, and_assoc]

theorem State.racesCommit_eq_false {s : State} {a : Nat}
    (h : s.busy = false ∨ a < s.bufBase.toNat + s.count.toNat ∨ s.inRegion a = false) : s.racesCommit a = false := by
  rw [← Bool.not_eq_true, s.racesCommit_iff]
  rintro ⟨hb, hr, hle⟩
  rcases h with h | h | h
  · simp [hb] at h
  · omega
  · simp [hr] at h

theorem hostMemRead_settled {s : State} {addr : Word} (hx : addr.toNat < 2 ^ s.cfg.aw)
    (hd : isDevice s.cfg addr.toNat = false) (hr : s.racesCommit addr.toNat = false) :
    hostMemRead addr s = .next { s with memData := s.lastWritten addr.toNat } := by
  simp [hostMemRead, hostAccess_pass hx hd, hr]

theorem hostMemRead_racing {s : State} {addr : Word} (hx : addr.toNat < 2 ^ s.cfg.aw)
    (hd : isDevice s.cfg addr.toNat = false) (hr : s.racesCommit addr.toNat = true) :
    hostMemRead addr s = .next { s with memData := Config.freeByte s.draws, draws := s.draws + 1 } := by
  simp [hostMemRead, hostAccess_pass hx hd, hr]

theorem hostMemWrite_fault {s : State} {addr : Word} (v : Byte) (hx : addr.toNat < 2 ^ s.cfg.aw)
    (hd : isDevice s.cfg addr.toNat = false) (hr : (s.busy && s.inRegion addr.toNat) = true) :
    hostMemWrite addr v s = .fault .hostBufferWrite := by
  simp only [hostMemWrite, hostAccess_pass hx hd, hr, if_true]

theorem hostMemWrite_stored {s : State} {addr : Word} (v : Byte) (hx : addr.toNat < 2 ^ s.cfg.aw)
    (hd : isDevice s.cfg addr.toNat = false) (hr : (s.busy && s.inRegion addr.toNat) = false) :
    hostMemWrite addr v s = .next { s with mem := Mem.write s.mem addr.toNat v } := by
  simp only [hostMemWrite, hostAccess_pass hx hd, hr, Bool.false_eq_true, if_false]

/-- A pending host read of memory is taken at every position (log 10). -/
theorem step_memRead {s : State} {addr : Word} {rest : List Event} (hadm : s.cfg.Admitted)
    (he : s.events = .memRead addr :: rest) : step s = hostMemRead addr { s with events := rest } :=
  step_of_answer (fetch_event (e := .memRead addr) hadm (by rw [he, pick_head rfl]))

/-- A pending host write of memory is taken at every position (log 10). -/
theorem step_memWrite {s : State} {addr : Word} {v : Byte} {rest : List Event} (hadm : s.cfg.Admitted)
    (he : s.events = .memWrite addr v :: rest) : step s = hostMemWrite addr v { s with events := rest } :=
  step_of_answer (fetch_event (e := .memWrite addr v) hadm (by rw [he, pick_head rfl]))

/-- Settles O40: a read that does not race with a commit returns the last value written, one that does a draw. -/
theorem hostReadOfMemoryReturnsTheLastWrite : Obligations.HostReadOfMemoryReturnsTheLastWrite := by
  intro s addr v rest hadm he hx hd
  let u : State := { s with events := rest }
  have settled (hr : s.busy = false ∨ addr.toNat < s.bufBase.toNat + s.count.toNat ∨ s.inRegion addr.toNat = false) :
      step s = .next { u with memData := u.lastWritten addr.toNat } :=
    (step_memRead hadm he).trans (hostMemRead_settled (s := u) hx hd (State.racesCommit_eq_false hr))
  refine ⟨fun hv hr => ?_, fun _ hr => ⟨_, settled hr⟩, fun hb hin hle => ?_⟩
  · have last : u.lastWritten addr.toNat = v := by simp [State.lastWritten, u, hv]
    rw [settled hr, last]
  · have racing : u.racesCommit addr.toNat = true := (u.racesCommit_iff _).2 ⟨hb, hin, hle⟩
    exact ⟨_, (step_memRead hadm he).trans (hostMemRead_racing (s := u) hx hd racing)⟩

/-- Settles O41: a write is stored but in the region of a busy block, and is read back at its own address alone. -/
theorem hostWriteIntoABusyRegionFaults : Obligations.HostWriteIntoABusyRegionFaults := by
  intro s addr v rest hadm he hx hd
  let u : State := { s with events := rest }
  refine ⟨fun hb hin => ?_, fun h => ⟨_, ?_, fun a => Mem.read_write s.mem addr.toNat a v⟩⟩
  · have inside : (u.busy && u.inRegion addr.toNat) = true := (Bool.and_eq_true _ _).mpr ⟨hb, hin⟩
    exact (step_memWrite hadm he).trans (hostMemWrite_fault (s := u) v hx hd inside)
  · have outside : (u.busy && u.inRegion addr.toNat) = false := Bool.and_eq_false_iff.2 h
    exact (step_memWrite hadm he).trans (hostMemWrite_stored (s := u) v hx hd outside)

end Sys2Proof.Machine

/-! The decoder at the positions where the block waits for a byte, and the round trip: an operation in its context is the
one that its event selects (30_encoding.md R81, R91). -/

namespace Sys2Proof.Machine

/-! ## Where the block waits for a byte -/

theorem Position.waiting_of_awaiting {p : Position} (h : p.state = .awaitingStart ∧ p.txv = false) : p.waiting = true :=
  (waiting_iff p).2 ⟨h.2, .inl h.1⟩

theorem Position.waiting_of_reading {p : Position} (h : p.state = .receiving ∧ p.phase ≠ .commit ∧ p.txv = false) :
    p.waiting = true :=
  (waiting_iff p).2 ⟨h.2.2, .inr ⟨h.1, h.2.1⟩⟩

/-! ## Receive events -/

theorem decode_rxByte_awaiting {p : Position} (b : Byte) (h : p.state = .awaitingStart ∧ p.txv = false) :
    decode p (.rxByte b) = .ok (.handshakeReply b) := by
  simp [decode, decodeByte, Position.waiting_of_awaiting h, h.1]

theorem decode_timeout_awaiting {p : Position} (h : p.state = .awaitingStart ∧ p.txv = false) :
    decode p .timeout = .ok .pollTimeout := by
  simp [decode, Position.waiting_of_awaiting h, h.1]

theorem decode_rxErr_awaiting {p : Position} (h : p.state = .awaitingStart ∧ p.txv = false) :
    decode p .rxErr = .ok .rxErrorAwait := by
  simp [decode, Position.waiting_of_awaiting h, h.1]

theorem decode_timeout_reading {p : Position} (h : p.state = .receiving ∧ p.phase ≠ .commit ∧ p.txv = false) :
    decode p .timeout = .ok .rxTimeout := by
  simp [decode, Position.waiting_of_reading h, h.1]

theorem decode_rxErr_reading {p : Position} (h : p.state = .receiving ∧ p.phase ≠ .commit ∧ p.txv = false) :
    decode p .rxErr = .ok .rxError := by
  simp [decode, Position.waiting_of_reading h, h.1]

/-- A position in RECEIVING with nothing offered differs from another of the same `PHASE` in `IDX` alone. -/
theorem Position.eq_of_receiving {p : Position} {ph : Phase}
    (h : p.state = .receiving ∧ p.phase = ph ∧ p.txv = false) : p = ⟨.receiving, ph, p.idx, false⟩ := by
  obtain ⟨hs, rfl, ht⟩ := h
  rw [← hs, ← ht]

theorem decode_rxByte_ctrl {p : Position} (b : Byte) (h : p.state = .receiving ∧ p.phase = .ctrl ∧ p.txv = false) :
    decode p (.rxByte b) = .ok (decodeCtrl b) := by
  rw [Position.eq_of_receiving h]
  rfl

theorem decode_rxByte_data {p : Position} (b : Byte) (h : p.state = .receiving ∧ p.phase = .data ∧ p.txv = false)
    (hi : p.idx.ult 128#8 = true) : decode p (.rxByte b) = .ok (.data b) := by
  rw [Position.eq_of_receiving h]
  exact if_pos hi

theorem decodeCtrl_of_wf {b : Byte} (h : (Instr.otherCtrl b).wf = true) : decodeCtrl b = .otherCtrl b := by
  revert b
  decide

/-- A well-formed OTHER_CTRL has none of the four bytes of the last row of R81 that the table names (log 20). -/
theorem otherCtrl_unnamed_of_wf {b : Byte} (h : (Instr.otherCtrl b).wf = true) :
    b ≠ byteNAK ∧ b ≠ byteACK ∧ b ≠ byteSTX ∧ b ≠ byteC := by
  revert b
  decide

/-! ## The round trip -/

/-- The rows by the context that spec/opcode_table.json gives them; the host's rows apply at every position. -/
theorem decode_encode {i : Instr} {p : Position} {e : Event} (hwf : i.wf = true) (he : encode i = some e)
    (hc : i.inContext p = true) : decode p e = .ok i := by
  cases i
  case soh | eot | canRx | escRx | nakRx | ackRx | stxRx | cRx =>
    cases he
    exact decode_rxByte_ctrl _ (receiving_of_context hc)
  case otherCtrl b =>
    cases he
    simp only [Instr.inContext, Bool.and_eq_true, Bool.not_eq_true', beq_iff_eq] at hc
    obtain ⟨⟨⟨⟨⟨⟨ht, hs⟩, hp⟩, -⟩, -⟩, -⟩, -⟩ := hc
    rw [decode_rxByte_ctrl b ⟨hs, hp, ht⟩, decodeCtrl_of_wf hwf]
  case handshakeReply b =>
    cases he
    exact decode_rxByte_awaiting b (awaiting_of_context hc)
  case seq b | seqc b | crch b | crcl b =>
    cases he
    rw [Position.eq_of_receiving (receiving_of_context hc)]
    rfl
  case data b =>
    cases he
    obtain ⟨here, inFrame⟩ := (Bool.and_eq_true _ _).mp hc
    exact decode_rxByte_data b (receiving_of_context here) inFrame
  case pollTimeout =>
    cases he
    exact decode_timeout_awaiting (awaiting_of_context hc)
  case rxErrorAwait =>
    cases he
    exact decode_rxErr_awaiting (awaiting_of_context hc)
  case rxTimeout =>
    cases he
    exact decode_timeout_reading (reading_of_context hc)
  case rxError =>
    cases he
    exact decode_rxErr_reading (reading_of_context hc)
  case txTake | commitStep =>
    cases he
    exact if_pos hc
  case reset | start v | ctrlRead | statusRead | statusWrite v =>
    cases he
    rfl
  case bufBaseAccess a | bufLenAccess a | countRead a | seqRead a | crcRead a | reserved1c a =>
    cases a <;> cases he <;> rfl
  case validate | reject | accept | commitEnd | txC | txAckFrame | txAckEot | txCan | crcUpdate => cases he

/-- Settles O5: by the rows of the table, each at its context; a row that no event encodes has no `e`. -/
theorem decodeOfEncodeGivesTheOperation : Obligations.DecodeOfEncodeGivesTheOperation :=
  fun _ _ _ hwf he hc => decode_encode hwf he hc

/-! ## Control bytes -/

/-- Settles O7: the four bytes that R81 matches first, then the bytes that fall to its last row. -/
theorem controlByteSelectsTheFirstMatch : Obligations.ControlByteSelectsTheFirstMatch := by
  intro p b ht hs hp
  rw [decode_rxByte_ctrl b ⟨hs, hp, ht⟩]
  refine ⟨?soh, ?eot, ?can, ?esc, fun hsoh heot hcan hesc => ?other⟩
  case soh | eot | can | esc =>
    rintro rfl
    rfl
  case other =>
    rcases decodeCtrl_unrecognised hsoh heot hcan hesc with h | ⟨h, hb⟩ | ⟨h, hb⟩ | ⟨h, hb⟩ | ⟨h, hb⟩
    · obtain ⟨hnak, hack, hstx, hc⟩ := otherCtrl_unnamed_of_wf (h ▸ wf_decodeCtrl b)
      exact .inr (.inr (.inr (.inr ⟨hnak, hack, hstx, hc, congrArg _ h⟩)))
    · exact .inl ⟨hb, congrArg _ h⟩
    · exact .inr (.inl ⟨hb, congrArg _ h⟩)
    · exact .inr (.inr (.inl ⟨hb, congrArg _ h⟩))
    · exact .inr (.inr (.inr (.inl ⟨hb, congrArg _ h⟩)))

/-- Settles O8: each event is decoded, as a closed value. -/
theorem sampleEventsDecode : Obligations.SampleEventsDecode := by
  unfold Obligations.SampleEventsDecode
  decide

end Sys2Proof.Machine

/-! The CRC engine (40_crc_engine.md): the update as the pseudocode of R110 over natural numbers (O44), the fold of R111
(O45), and what follows from one iteration being linear and injective (O46 to O48). -/

namespace Sys2Proof.Machine

/-! ## The byte's place in the update -/

/-- A byte in bits 15:8, as the model appends it and as R110 shifts it. -/
theorem append_zero_eq_shiftLeft (b : Byte) : b ++ 0#8 = b.setWidth 16 <<< 8 := by
  apply BitVec.eq_of_toNat_eq
  rw [BitVec.toNat_append, BitVec.toNat_shiftLeft, BitVec.toNat_setWidth]
  simp only [BitVec.toNat_ofNat, Nat.zero_mod, Nat.or_zero, Nat.shiftLeft_eq]
  omega

theorem crc16Update_eq (acc : Crc16) (b : Byte) : crc16Update acc b = crcShifts 8 (acc ^^^ (b.setWidth 16 <<< 8)) :=
  congrArg (fun x : Crc16 => crcShifts 8 (acc ^^^ x)) (append_zero_eq_shiftLeft b)

theorem crc16Update_zero (acc : Crc16) : crc16Update acc 0 = crcShifts 8 acc :=
  congrArg (crcShifts 8) BitVec.xor_zero

/-! ## The iteration against the pseudocode -/

/-- One iteration of R110 as its pseudocode writes it, over natural numbers. -/
def crcShiftNat (a : Nat) : Nat :=
  if a.testBit 15 then ((a <<< 1) &&& 0xFFFF) ^^^ 0x1021 else (a <<< 1) &&& 0xFFFF

theorem crcShift_toNat (a : Crc16) : (crcShift a).toNat = crcShiftNat a.toNat := by
  have top : a.toNat.testBit 15 = a.msb := a.msb_eq_getLsbD_last.symm
  have kept : (a <<< 1).toNat = (a.toNat <<< 1) &&& 0xFFFF := by
    rw [BitVec.toNat_shiftLeft]
    exact (Nat.and_two_pow_sub_one_eq_mod _ 16).symm
  unfold crcShift crcShiftNat
  rw [top, ← kept]
  split
  · exact BitVec.toNat_xor ..
  · rfl

theorem crcShifts_toNat (n : Nat) (a : Crc16) : (crcShifts n a).toNat = crcShiftNat^[n] a.toNat := by
  induction n generalizing a with
  | zero => rfl
  | succ n ih => rw [Function.iterate_succ_apply, ← crcShift_toNat, ← ih, crcShifts]

theorem crc16Update_toNat (acc : Crc16) (b : Byte) :
    (crc16Update acc b).toNat = crcShiftNat^[8] (acc.toNat ^^^ (b.toNat <<< 8)) := by
  rw [crc16Update, crcShifts_toNat, BitVec.toNat_xor, BitVec.toNat_append]
  simp only [BitVec.toNat_ofNat, Nat.zero_mod, Nat.or_zero]

theorem exec_crcUpdate {s : State} (hc : s.cfg.Admitted) (acc : Crc16) (b : Byte) :
    exec (.crcUpdate acc b) s = .next { s with crcOut := crc16Update acc b } :=
  guarded_pass hc rfl _

/-- Settles O44: CRC_UPDATE returns the update, whose iterations are the pseudocode's. -/
theorem crcUpdateFollowsThePseudocode : Obligations.CrcUpdateFollowsThePseudocode :=
  fun _ acc b hc => ⟨_, exec_crcUpdate hc acc b, crc16Update_toNat acc b⟩

/-! ## The fold -/

theorem crc16_append (acc : Crc16) (xs ys : List Byte) : crc16 acc (xs ++ ys) = crc16 (crc16 acc xs) ys :=
  List.foldl_append

/-- Settles O45: the equations of a left fold. -/
theorem crcOfASequenceIsTheLeftFold : Obligations.CrcOfASequenceIsTheLeftFold :=
  fun acc b xs ys => ⟨crc16_nil acc, crc16_cons acc b xs, crc16_append acc xs ys⟩

/-! ## Linearity -/

/-- Where both operands fold the polynomial in, the two cancel, and the exclusive or folds none in. -/
theorem crcShift_xor (a c : Crc16) : crcShift (a ^^^ c) = crcShift a ^^^ crcShift c := by
  have cancel (x y : Crc16) : (x ^^^ crcPoly) ^^^ (y ^^^ crcPoly) = x ^^^ y := by
    rw [BitVec.xor_comm y, BitVec.xor_assoc, ← BitVec.xor_assoc crcPoly, BitVec.xor_self, BitVec.zero_xor]
  have swap (x y : Crc16) : (x ^^^ y) ^^^ crcPoly = (x ^^^ crcPoly) ^^^ y := by ac_rfl
  simp only [crcShift, BitVec.msb_xor, BitVec.shiftLeft_xor_distrib]
  cases a.msb <;> cases c.msb
  · rfl
  · exact BitVec.xor_assoc ..
  · exact swap ..
  · exact (cancel ..).symm

theorem crcShifts_xor (n : Nat) (a c : Crc16) : crcShifts n (a ^^^ c) = crcShifts n a ^^^ crcShifts n c := by
  induction n generalizing a c with
  | zero => rfl
  | succ n ih => simp only [crcShifts, crcShift_xor, ih]

theorem crc16Update_xor (a c : Crc16) (b d : Byte) :
    crc16Update (a ^^^ c) (b ^^^ d) = crc16Update a b ^^^ crc16Update c d := by
  simp only [crc16Update_eq, ← crcShifts_xor, BitVec.setWidth_xor, BitVec.shiftLeft_xor_distrib]
  congr 1
  ac_rfl

/-- Settles O47: every iteration is linear, and the byte enters by an exclusive or alone. -/
theorem crcUpdateIsLinear : Obligations.CrcUpdateIsLinear :=
  fun a c b d => ⟨crc16Update_xor a c b d, (crc16Update_eq a b).trans (crc16Update_zero _).symm⟩

/-! ## Injectivity -/

/-- The polynomial is odd, so bit 0 of the result tells whether it was folded in. -/
theorem crcShift_getLsbD_zero (a : Crc16) : (crcShift a).getLsbD 0 = a.msb := by
  cases h : a.msb <;> simp [crcShift, crcPoly, h]

theorem crcShift_injective : Function.Injective crcShift := by
  intro a c h
  have top : a.msb = c.msb := by rw [← crcShift_getLsbD_zero, h, crcShift_getLsbD_zero]
  have rest : a <<< 1 = c <<< 1 := by
    unfold crcShift at h
    rw [top] at h
    split at h
    · exact BitVec.xor_left_inj _ |>.mp h
    · exact h
  rw [BitVec.msb_eq_decide, BitVec.msb_eq_decide, decide_eq_decide] at top
  bv_omega

theorem crcShifts_injective (n : Nat) : Function.Injective (crcShifts n) := by
  induction n with
  | zero => exact Function.injective_id
  | succ n ih => exact ih.comp crcShift_injective

theorem crc16Update_injective_acc (b : Byte) : Function.Injective (crc16Update · b) :=
  fun _ _ h => (BitVec.xor_left_inj _).mp (crcShifts_injective 8 h)

theorem crc16Update_injective_byte (acc : Crc16) : Function.Injective (crc16Update acc) :=
  fun _ _ h => (BitVec.append_left_inj 0#8).mp ((BitVec.xor_right_inj (w := 16) acc).mp (crcShifts_injective 8 h))

theorem crc16_injective_acc (bs : List Byte) : Function.Injective (crc16 · bs) := by
  induction bs with
  | nil => exact Function.injective_id
  | cons b bs ih => exact ih.comp (crc16Update_injective_acc b)

/-- Settles O48: the changed byte changes the accumulator, and the equal bytes after it keep the two apart. -/
theorem crcDetectsOneChangedByte : Obligations.CrcDetectsOneChangedByte := by
  intro acc xs ys b c hbc h
  rw [crc16_append, crc16_append, crc16_cons, crc16_cons] at h
  exact hbc (crc16Update_injective_byte _ (crc16_injective_acc ys h))

/-! ## The residue -/

/-- While no set bit reaches bit 15, the iterations are plain shifts. -/
theorem crcShifts_of_lt {n : Nat} {a : Crc16} (h : a.toNat * 2 ^ n < 2 ^ 16) : crcShifts n a = a <<< n := by
  induction n generalizing a with
  | zero => exact (BitVec.shiftLeft_zero a).symm
  | succ n ih =>
    rw [Nat.pow_succ', ← mul_assoc, mul_comm a.toNat] at h
    have small : 2 * a.toNat < 2 ^ 16 := lt_of_le_of_lt (Nat.le_mul_of_pos_right _ (by positivity)) h
    have plain : crcShift a = a <<< 1 := by simp [crcShift, BitVec.msb_eq_false_iff_two_mul_lt.mpr small]
    have doubled : (a <<< 1).toNat = 2 * a.toNat := by bv_omega
    rw [crcShifts, plain, ih (doubled ▸ h), ← BitVec.shiftLeft_add, Nat.add_comm]

/-- A byte equal to the accumulator's high byte leaves its low byte, moved up. -/
theorem crc16Update_own_high (hi lo : Byte) : crc16Update (hi ++ lo) hi = lo ++ 0#8 := by
  have low : (hi ++ lo) ^^^ (hi ++ 0#8) = lo.setWidth 16 := by
    rw [BitVec.xor_append, BitVec.xor_self, BitVec.xor_zero, BitVec.setWidth_eq_append (by decide)]
    rfl
  have room : (lo.setWidth 16).toNat * 2 ^ 8 < 2 ^ 16 := by
    rw [BitVec.toNat_setWidth]
    omega
  calc crc16Update (hi ++ lo) hi = crcShifts 8 (lo.setWidth 16) := congrArg (crcShifts 8) low
    _ = lo.setWidth 16 <<< 8 := crcShifts_of_lt room
    _ = lo ++ 0#8 := (append_zero_eq_shiftLeft lo).symm

theorem crc16Update_own_byte (b : Byte) : crc16Update (b ++ 0#8) b = 0 := by
  rw [crc16Update, BitVec.xor_self]
  rfl

theorem halves_append (c : Crc16) : c.extractLsb' 8 8 ++ c.extractLsb' 0 8 = c :=
  (BitVec.extractLsb'_append_extractLsb'_eq_extractLsb' (start₂ := 8) (start₁ := 0) rfl).trans BitVec.extractLsb'_eq_self

/-- Its own two bytes, high byte first, bring an accumulator to zero. -/
theorem crc16_own_bytes (c : Crc16) : crc16 c [c.extractLsb' 8 8, c.extractLsb' 0 8] = 0 := by
  have high := crc16Update_own_high (c.extractLsb' 8 8) (c.extractLsb' 0 8)
  rw [halves_append] at high
  rw [crc16_cons, high, crc16_cons, crc16Update_own_byte, crc16_nil]

/-- Settles O46: the check value is evaluated, and the trailer is the accumulator's own two bytes. -/
theorem crcResidueIsZero : Obligations.CrcResidueIsZero :=
  ⟨by decide +kernel, fun d => (crc16_append _ d _).trans (crc16_own_bytes _)⟩

end Sys2Proof.Machine

/-! What each operation leaves of `CALC_CRC`, from the effects of `exec` (O51). -/

namespace Sys2Proof.Machine

/-- A control byte writes `CALC_CRC` where it starts a frame (40_crc_engine.md R114, 41_packet_reader.md R133). -/
theorem dispatchCtrl_calcCrc (b : Byte) (s : State) :
    (dispatchCtrl b s).calcCrc = if b = byteSOH then crcInit else s.calcCrc := by
  unfold dispatchCtrl
  split_ifs
  · rfl
  · rfl
  · rfl
  · rfl
  · rcases unrecognisedCtrl_cases (recordCtrl b s) with ⟨-, e⟩ | ⟨-, e⟩ <;> simp [e]

@[simp] theorem commitByte_calcCrc (s : State) : (commitByte s).calcCrc = s.calcCrc := by
  rcases commitByte_cases s with ⟨-, e⟩ | ⟨-, e⟩ <;> simp [e]

@[simp] theorem takeByte_calcCrc (s : State) : (takeByte s).calcCrc = s.calcCrc := by
  obtain ⟨n, -, e⟩ := takeByte_cases s
  rw [e]

/-- `CALC_CRC` moves where a frame starts, at a payload byte, where a session opens and at reset (40_crc_engine.md R114). -/
theorem Effect.calcCrc {i : Instr} {s t : State} (he : Effect i s t) :
    t.calcCrc = s.calcCrc ∨
    ((i = .soh ∨ i = .handshakeReply byteSOH ∨ i = .reset ∨ ∃ v, i = .start v) ∧ t.calcCrc = 0) ∨
    (∃ b, i = .data b ∧ t.calcCrc = crc16Update s.calcCrc b) := by
  cases he
  case soh hi _ e => exact .inr (.inl ⟨.inl hi, by rw [e]; rfl⟩)
  case handshakeReply b hi _ e =>
    rw [e, dispatchCtrl_calcCrc]
    split
    · rename_i hb
      exact .inr (.inl ⟨.inr (.inl (hb ▸ hi)), rfl⟩)
    · exact .inl rfl
  case reset hi e => exact .inr (.inl ⟨.inr (.inr (.inl hi)), by rw [e]; rfl⟩)
  case opened v hi _ _ _ _ e => exact .inr (.inl ⟨.inr (.inr (.inr ⟨v, hi⟩)), by rw [e]; rfl⟩)
  case data b hi _ _ e => exact .inr (.inr ⟨b, hi, by rw [e]; rfl⟩)
  case unrecognised b _ _ e => rcases e with rfl | rfl <;> exact .inl rfl
  case commitStep _ _ e => exact .inl (by simp [e])
  case txTake _ _ e => exact .inl (by simp [e])
  all_goals
    rename_i e
    subst e
    exact .inl rfl

/-- Settles O51: the effects of `exec`, sorted by what they do to `CALC_CRC`. -/
theorem onlySohDataStartAndResetWriteCalcCrc : Obligations.OnlySohDataStartAndResetWriteCalcCrc :=
  fun _ _ _ h => (exec_effect h).calcCrc

end Sys2Proof.Machine

/-! The packet reader (41_packet_reader.md): what the rows of a frame answer in their context, from SOH to the end of its
commit (O11, O16 to O25), and what the one step that begins a commit has checked (O57). -/

namespace Sys2Proof.Machine

/-! ## Contexts and shared operations -/

/-- Where the block reads in `(RECEIVING, ph)`, the rows of that phase are in their context (30_encoding.md R91). -/
theorem State.receivingIn_context {s : State} {ph : Phase} (h : s.receivingIn ph) :
    (!s.position.txv && s.position.state == .receiving && s.position.phase == ph) = true := by
  obtain ⟨hs, hp, ht⟩ := h
  simp [State.position_eq, hs, hp, ht]

theorem acceptFrame_fits {s : State} (h : s.count.toNat + 128 ≤ s.bufLen.toNat) :
    acceptFrame s = .next { s with idx := 0, phase := .commit } :=
  if_neg (by omega)

theorem acceptFrame_overruns {s : State} (h : s.bufLen.toNat < s.count.toNat + 128) :
    acceptFrame s = .fault .bufferOverrun :=
  if_pos h

theorem idx_eq_127_iff {i : Byte} : i = 127 ↔ i.toNat = 127 := by bv_omega

/-! ## The bytes of a frame -/

/-- Settles O11: SOH is recorded (42_transfer_fsm.md R171) and starts a frame. -/
theorem sohStartsAFrame : Obligations.SohStartsAFrame :=
  fun _ hadm h => guarded_pass (i := .soh) hadm (State.receivingIn_context h) _

/-- Settles O16: neither row reads the byte that it stores. -/
theorem sequenceBytesAreStored : Obligations.SequenceBytesAreStored :=
  fun _ b hadm => ⟨fun h => guarded_pass (i := .seq b) hadm (State.receivingIn_context h) _,
    fun h => guarded_pass (i := .seqc b) hadm (State.receivingIn_context h) _⟩

theorem exec_data {s : State} (hadm : s.cfg.Admitted) (h : s.receivingIn .data) (hi : s.idx.toNat < 128) (b : Byte) :
    exec (.data b) s = .next { s with
      pkt := s.pkt.setIfInBounds s.idx.toNat b, calcCrc := crc16Update s.calcCrc b, idx := s.idx + 1,
      phase := if s.idx.toNat = 127 then .crch else .data, tmr := s.cfg.tByte } := by
  have context : (Instr.data b).inContext s.position = true :=
    Bool.and_eq_true_iff.2 ⟨State.receivingIn_context h, by simpa [State.position_eq, BitVec.ult] using hi⟩
  refine (guarded_pass hadm context _).trans ?_
  simp only [idx_succ_eq_128, idx_eq_127_iff]
  rfl

/-- Settles O17: the byte of `PKT` that differs is the one at `IDX`. -/
theorem payloadByteIsStagedAndFolded : Obligations.PayloadByteIsStagedAndFolded := by
  intro s b hadm h hi
  refine ⟨_, exec_data hadm h (by omega) b, fun j hj => ?_⟩
  rw [Vector.getElem_setIfInBounds]
  simp only [eq_comm]

/-- Settles O18: the byte and the half that is kept make up `RX_CRC`. -/
theorem trailerHighByteIsStored : Obligations.TrailerHighByteIsStored := by
  intro s b hadm h
  exact ⟨_, guarded_pass (i := .crch b) hadm (State.receivingIn_context h) _,
    BitVec.extractLsb'_append_eq_left, BitVec.extractLsb'_append_eq_right⟩

/-! ## Validation -/

/-- Every outcome of a validation, by the first check that fails (41_packet_reader.md R140) or by what `accept()` does
(R142). -/
theorem validateFrame_outcomes (s : State) :
    (s.rxCrc ≠ s.calcCrc → validateFrame s = .next (rejectFrame .badCrc s)) ∧
    (s.rxCrc = s.calcCrc → s.rxSeq ≠ s.expSeq → validateFrame s = .next (rejectFrame .badSeq s)) ∧
    (s.rxCrc = s.calcCrc → s.rxSeq = s.expSeq → s.rxSeqc ≠ ~~~s.rxSeq →
      validateFrame s = .next (rejectFrame .badSeqc s)) ∧
    (s.rxCrc = s.calcCrc → s.rxSeq = s.expSeq → s.rxSeqc = ~~~s.rxSeq → s.count.toNat + 128 ≤ s.bufLen.toNat →
      validateFrame s = .next { s with idx := 0, phase := .commit }) ∧
    (s.rxCrc = s.calcCrc → s.rxSeq = s.expSeq → s.rxSeqc = ~~~s.rxSeq → s.bufLen.toNat < s.count.toNat + 128 →
      validateFrame s = .fault .bufferOverrun) :=
  ⟨validateFrame_badCrc, validateFrame_badSeq, validateFrame_badSeqc,
    fun hc hs hp fits => (validateFrame_pass hc hs hp).trans (acceptFrame_fits fits),
    fun hc hs hp overruns => (validateFrame_pass hc hs hp).trans (acceptFrame_overruns overruns)⟩

theorem exec_validate {s : State} (hadm : s.cfg.Admitted) (h : s.receivingIn .crcl) :
    exec .validate s = validateFrame s :=
  guarded_pass (i := .validate) hadm (State.receivingIn_context h) _

theorem exec_crcl {s : State} (hadm : s.cfg.Admitted) (h : s.receivingIn .crcl) (b : Byte) :
    exec (.crcl b) s = validateFrame { s with rxCrc := s.rxCrc.extractLsb' 8 8 ++ b } :=
  guarded_pass (i := .crcl b) hadm (State.receivingIn_context h) _

theorem exec_reject {s : State} (hadm : s.cfg.Admitted) (h : s.receivingIn .crcl) (cause : RejectCause) :
    exec (.reject cause) s = .next (rejectFrame cause s) :=
  guarded_pass (i := .reject cause) hadm (State.receivingIn_context h) _

theorem exec_accept {s : State} (hadm : s.cfg.Admitted) (h : s.receivingIn .crcl) :
    exec .accept s = acceptFrame s :=
  guarded_pass (i := .accept) hadm (State.receivingIn_context h) _

/-- Settles O19: CRCL validates the state that holds its byte. -/
theorem trailerLowByteValidatesTheFrame : Obligations.TrailerLowByteValidatesTheFrame := by
  intro s b hadm h c rejected
  rw [exec_crcl hadm h]
  exact validateFrame_outcomes { s with rxCrc := c }

/-- Settles O20: VALIDATE is the validation of the state as it stands. -/
theorem validationChoosesTheCauseInOrder : Obligations.ValidationChoosesTheCauseInOrder := by
  intro s hadm h rejected
  rw [exec_validate hadm h]
  exact validateFrame_outcomes s

/-- Settles O21: the row REJECT at each cause. -/
theorem rejectSendsOneCanAndAborts : Obligations.RejectSendsOneCanAndAborts :=
  fun _ hadm h => ⟨exec_reject hadm h .badCrc, exec_reject hadm h .badSeq, exec_reject hadm h .badSeqc⟩

/-- Settles O22: the two outcomes of `accept()`. -/
theorem acceptEntersCommitWhereTheFrameFits : Obligations.AcceptEntersCommitWhereTheFrameFits :=
  fun _ hadm h => ⟨fun fits => (exec_accept hadm h).trans (acceptFrame_fits fits),
    fun overruns => (exec_accept hadm h).trans (acceptFrame_overruns overruns)⟩

/-! ## Commit -/

theorem exec_commitStep {s : State} (hadm : s.cfg.Admitted) (hc : s.position.committing = true) :
    exec .commitStep s = .next (commitByte s) :=
  guarded_pass (i := .commitStep) hadm hc _

/-- Settles O23: the write is one for both cases; the 128th byte ends the frame besides. -/
theorem commitStepWritesOneByte : Obligations.CommitStepWritesOneByte := by
  intro s hadm hs hp hi
  refine ⟨Mem.write s.mem s.destAddress s.pkt[s.idx.toNat], fun a => Mem.read_write .., ?_⟩
  rw [exec_commitStep hadm (s.committing_iff.2 ⟨hs, hp, hi⟩), ← s.stagedByte_eq hi]
  rcases commitByte_cases s with ⟨last, e⟩ | ⟨notLast, e⟩ <;> rw [e]
  · rw [if_pos (idx_eq_127_iff.1 last)]
    rfl
  · rw [if_neg (mt idx_eq_127_iff.2 notLast)]
    rfl

/-- Settles O24: COMMIT_END is `commit_end()` in its context. -/
theorem commitEndFinishesTheFrame : Obligations.CommitEndFinishesTheFrame := by
  intro s hadm hs hp hi
  have context : Instr.commitEnd.inContext s.position = true := by
    simp [Instr.inContext, State.position_eq, hs, hp, hi]
  exact guarded_pass hadm context _

/-- Left to itself, the block writes the last byte and ends the frame in one step (41_packet_reader.md R150). -/
theorem step_commitLast {s : State} (hadm : s.cfg.Admitted) (hq : s.quiet) (hc : s.position.committing = true)
    (hlast : s.idx = 127) : step s = .next (finishFrame (commitWrite s)) := by
  rcases commitByte_cases s with ⟨-, e⟩ | ⟨notLast, -⟩
  · rw [step_commit hadm hq hc, e]
  · exact absurd hlast notLast

/-- Settles O25: 127 CommitSteps write all but the last byte (`run_commits`), and the 128th completes the payload. -/
theorem commitCopiesThePayload : Obligations.CommitCopiesThePayload := by
  intro s hadm hs hp hi hq hfit
  obtain ⟨m, hrun, committed⟩ := run_commits hadm hs hp hi hq hfit (le_refl 127)
  have committing : (s.afterCommits 127 m).position.committing = true :=
    (State.committing_iff _).2 ⟨hs, hp, by rw [State.afterCommits_idx] <;> decide⟩
  have hstep := step_commitLast (s := s.afterCommits 127 m) hadm hq committing rfl
  rw [commitWrite_afterCommits (by omega) hfit] at hstep
  have complete := committed.write (by omega)
  refine ⟨Mem.write m (s.bufBase.toNat + s.count.toNat + 127) s.pkt[127], (run_succ hrun).trans hstep,
    fun k hk => ?_, complete.kept⟩
  rw [complete.written k hk, Vector.getElem?_eq_getElem hk]

/-! ## The step that begins a commit -/

/-- A control byte leaves `PHASE`, or sets it to CTRL or SEQ. -/
theorem dispatchCtrl_phase_commit {b : Byte} {s : State} (h : (dispatchCtrl b s).phase = .commit) :
    s.phase = .commit := by
  rcases dispatchCtrl_cases b s with e | e | ⟨c, -, e⟩ | e <;> rw [e] at h
  · cases h
  · exact h
  · cases h
  · exact h

@[simp] theorem takeByte_phase (s : State) : (takeByte s).phase = s.phase := by
  obtain ⟨n, -, e⟩ := takeByte_cases s
  rw [e]

/-- An operation that an event selects leaves the block in COMMIT only where it was there, or where a validation has passed
every check and the frame fits (41_packet_reader.md R140, R142). (ACCEPT run by itself checks nothing; no event selects it,
log 7.) -/
theorem Effect.phase_commit {i : Instr} {s t : State} (he : Effect i s t) {e : Event} (hi : encode i = some e)
    (ht : t.phase = .commit) :
    s.phase = .commit ∨
    (t.rxCrc = t.calcCrc ∧ t.rxSeq = t.expSeq ∧ t.rxSeqc = ~~~t.rxSeq ∧ t.count.toNat + 128 ≤ t.bufLen.toNat) := by
  cases he
  case accepted c hi' _ hv hl e =>
    have checked : i ≠ .accept := by
      rintro rfl
      cases hi
    obtain ⟨crcOk, seqOk, cmpOk⟩ := hv checked
    subst e
    exact .inr ⟨crcOk, seqOk, cmpOk, hl⟩
  case unrecognised b _ _ e =>
    rcases e with rfl | rfl
    · exact .inl ht
    · cases ht
  case handshakeReply b _ _ e =>
    exact .inl (dispatchCtrl_phase_commit (s := { s with state := .receiving }) (e ▸ ht))
  case data b _ _ _ e =>
    subst e
    simp only [restartWait_phase] at ht
    split at ht <;> cases ht
  case commitStep _ hc _ => exact .inl (s.committing_iff.1 hc).2.1
  case txTake _ _ e => exact .inl (by rwa [e, takeByte_phase] at ht)
  case eot _ _ e | emits _ _ _ _ e | pollTimeout _ _ e | regRead _ _ e | ignored _ _ e | bufBase _ _ _ e |
      bufLen _ _ _ e | crcUpdate _ _ _ e =>
    subst e
    exact .inl ht
  all_goals
    rename_i e
    subst e
    cases ht

/-- Settles O57: the step runs an operation that an event selects; a host access or a silent cycle keeps `PHASE`. -/
theorem onlyTheExpectedFrameIsCommitted : Obligations.OnlyTheExpectedFrameIsCommitted := by
  intro s t h hs ht
  obtain ⟨-, es, n, d, p, -, -, ⟨i, e, -, hi, -, hx⟩ | ⟨addr, -, hr⟩ | ⟨addr, v, -, hw⟩ | rfl⟩ := step_cases h
  · exact ((exec_effect hx).phase_commit hi ht).resolve_left hs
  · obtain ⟨v, k, rfl⟩ := hostMemRead_next hr
    exact absurd ht hs
  · obtain ⟨-, rfl⟩ := hostMemWrite_next hw
    exact absurd ht hs
  · exact absurd ht hs

end Sys2Proof.Machine

/-! The rows of the transfer state machine (42_transfer_fsm.md): what each answers in its context (O12, O13, O15, O28 to
O31), that outside it nothing runs (O10), and where a receive event can occur (O9). -/

namespace Sys2Proof.Machine

/-! ## Contexts -/

/-- In the handshake, with nothing offered, the rows of the handshake are in their context (30_encoding.md R91). -/
theorem State.awaiting_context {s : State} (h : s.awaiting) :
    (!s.position.txv && s.position.state == .awaitingStart) = true := by
  obtain ⟨hs, ht⟩ := h
  simp [State.position_eq, hs, ht]

/-- Where the block reads a byte of RECEIVING, so are the rows of the transport's errors (42_transfer_fsm.md R180, R181). -/
theorem State.reading_context {s : State} (h : s.reading) :
    (!s.position.txv && s.position.state == .receiving && s.position.phase != .commit) = true := by
  obtain ⟨hs, hp, ht⟩ := h
  simp [State.position_eq, hs, hp, ht]

/-- Every row runs under the guard of its own context (30_encoding.md R91). -/
theorem exec_guarded (i : Instr) (s : State) : ∃ o, exec i s = guarded i s o := by
  cases i <;> exact ⟨_, rfl⟩

/-- Settles O10: every row is guarded, and outside its context the guard refuses. -/
theorem outsideItsContextNothingRuns : Obligations.OutsideItsContextNothingRuns := by
  intro i s hadm hi
  obtain ⟨o, ho⟩ := exec_guarded i s
  rw [ho, guarded_notEnabled hadm hi]

/-! ## Control bytes -/

/-- Settles O12: EOT is recorded (R171) and ends the transmission. -/
theorem eotEndsTheTransfer : Obligations.EotEndsTheTransfer :=
  fun _ hadm h => guarded_pass (i := .eot) hadm (State.receivingIn_context h) _

/-- Settles O13: each of the two bytes is recorded (R171) and enters the abort. -/
theorem senderCancelAndEscapeAbort : Obligations.SenderCancelAndEscapeAbort :=
  fun _ hadm h => ⟨guarded_pass (i := .canRx) hadm (State.receivingIn_context h) _,
    guarded_pass (i := .escRx) hadm (State.receivingIn_context h) _⟩

/-- The byte that answers the handshake is dispatched as a control byte of RECEIVING (42_transfer_fsm.md R173). -/
theorem exec_handshakeReply {s : State} (hadm : s.cfg.Admitted) (h : s.awaiting) (b : Byte) :
    exec (.handshakeReply b) s = .next (dispatchCtrl b { s with state := .receiving }) :=
  guarded_pass (i := .handshakeReply b) hadm (State.awaiting_context h) _

/-- Settles O15: the reply is dispatched by R81; `COUNT` is 0 throughout the handshake, and an EOT leaves it. -/
theorem handshakeReplyIsTheFirstControlByte : Obligations.HandshakeReplyIsTheFirstControlByte :=
  ⟨fun _ b hadm h => exec_handshakeReply hadm h b,
    fun _ inv hadm h => ⟨_, exec_handshakeReply hadm h byteEOT, rfl, inv.countAwaiting h.1, rfl⟩⟩

/-! ## Transmit and transport -/

/-- Settles O28: each row emits its byte in its context. -/
theorem emittingRowsOfferTheirByte : Obligations.EmittingRowsOfferTheirByte :=
  fun _ hadm => ⟨fun h => guarded_pass (i := .txC) hadm (State.awaiting_context h) _,
    fun h => guarded_pass (i := .txAckFrame) hadm (State.receivingIn_context h) _,
    fun h => guarded_pass (i := .txAckEot) hadm (State.receivingIn_context h) _,
    fun h => guarded_pass (i := .txCan) hadm (State.receivingIn_context h) _⟩

/-- What `TxTake` leaves in `TMR`, by the wait that follows it (42_transfer_fsm.md R185). -/
theorem takeByte_eq (s : State) :
    takeByte s = { s with
      txStream := s.txStream ++ [s.txb], txv := false,
      tmr := if s.state = .awaitingStart then (if s.txb = byteC then s.cfg.tPoll else s.tmr)
        else if s.state = .receiving then s.cfg.tByte else s.tmr } := by
  unfold takeByte
  split_ifs <;> rfl

theorem exec_txTake {s : State} (hadm : s.cfg.Admitted) (h : s.txv = true) : exec .txTake s = .next (takeByte s) :=
  guarded_pass (i := .txTake) hadm h _

/-- Settles O29: TX_TAKE takes the byte, and the wait that follows sets the timer. -/
theorem txTakeDrainsTheOfferedByte : Obligations.TxTakeDrainsTheOfferedByte := by
  intro s hadm h
  rw [exec_txTake hadm h, takeByte_eq]
  rfl

theorem exec_pollTimeout {s : State} (hadm : s.cfg.Admitted) (h : s.awaiting) :
    exec .pollTimeout s = .next (emit byteC (timerExpired s)) :=
  guarded_pass (i := .pollTimeout) hadm (State.awaiting_context h) _

theorem exec_rxTimeout {s : State} (hadm : s.cfg.Admitted) (h : s.reading) :
    exec .rxTimeout s = .next (abort .rxTimeout (timerExpired s)) :=
  guarded_pass (i := .rxTimeout) hadm (State.reading_context h) _

/-- Settles O30: the expired timer, and `'C'` again. -/
theorem pollTimeoutSendsC : Obligations.PollTimeoutSendsC :=
  fun _ => exec_pollTimeout

/-- Settles O31: the three rows enter the abort, the timeout with the timer expired. -/
theorem transportErrorsAbort : Obligations.TransportErrorsAbort :=
  fun _ hadm => ⟨exec_rxTimeout hadm,
    fun h => guarded_pass (i := .rxError) hadm (State.reading_context h) _,
    fun h => guarded_pass (i := .rxErrorAwait) hadm (State.awaiting_context h) _⟩

/-! ## Where receive events can occur -/

theorem State.waiting_iff (s : State) : s.position.waiting = true ↔ s.awaiting ∨ s.reading := by
  rw [Position.waiting_iff, State.position_eq]
  tauto

/-- An event turned away because the block does not wait for a byte stays where it is (42_transfer_fsm.md R184). -/
theorem occurs_of_waitReason {p : Position} {e : Event} (h : decode p e = .error p.waitReason) : occurs p e = false := by
  simp only [occurs, h, Position.waitReason]
  split_ifs <;> rfl

/-- An event that the decoder answers exactly where the block waits for a byte occurs exactly there. -/
theorem occurs_iff_waiting {p : Position} {e : Event} (answered : p.waiting = true → ∃ i, decode p e = .ok i)
    (turnedAway : p.waiting = false → decode p e = .error p.waitReason) : occurs p e = true ↔ p.waiting = true := by
  cases hw : p.waiting with
  | true =>
    obtain ⟨i, hi⟩ := answered hw
    simp [occurs_of_decode hi]
  | false => simp [occurs_of_waitReason (turnedAway hw)]

theorem occurs_rxErr (p : Position) : occurs p .rxErr = true ↔ p.waiting = true :=
  occurs_iff_waiting (fun hw => ⟨_, if_pos hw⟩) (fun hw => if_neg (by simp [hw]))

theorem occurs_timeout (p : Position) : occurs p .timeout = true ↔ p.waiting = true :=
  occurs_iff_waiting (fun hw => ⟨_, if_pos hw⟩) (fun hw => if_neg (by simp [hw]))

/-- A byte selects a row in every phase that reads one, in DATA with `IDX <= 127` (30_encoding.md R91, log 28). -/
theorem decode_rxByte_reading {p : Position} (b : Byte)
    (h : p.state = .receiving ∧ p.phase ≠ .commit ∧ p.txv = false) (hi : p.phase = .data → p.idx.toNat ≤ 127) :
    ∃ i, decode p (.rxByte b) = .ok i := by
  obtain ⟨hs, hp, ht⟩ := h
  cases hph : p.phase
  case ctrl => exact ⟨_, decode_rxByte_ctrl b ⟨hs, hph, ht⟩⟩
  case data =>
    have inFrame : p.idx.toNat < 128 := Nat.lt_succ_of_le (hi hph)
    exact ⟨_, decode_rxByte_data b ⟨hs, hph, ht⟩ (by simpa [BitVec.ult] using inFrame)⟩
  case seq | seqc | crch | crcl =>
    rw [Position.eq_of_receiving ⟨hs, hph, ht⟩]
    exact ⟨_, rfl⟩
  case commit => exact absurd hph hp

theorem occurs_rxByte {p : Position} (b : Byte) (hi : p.phase = .data → p.idx.toNat ≤ 127) :
    occurs p (.rxByte b) = true ↔ p.waiting = true := by
  refine occurs_iff_waiting (fun hw => ?_) (fun hw => if_neg (by simp [hw]))
  obtain ⟨ht, hs | ⟨hs, hp⟩⟩ := (Position.waiting_iff p).1 hw
  · exact ⟨_, decode_rxByte_awaiting b ⟨hs, ht⟩⟩
  · exact decode_rxByte_reading b ⟨hs, hp, ht⟩ hi

/-- Settles O9: the three receive events and `rx_ready` are tied to the one condition of R184. -/
theorem receiveEventsOccurExactlyWhereTheBlockWaits : Obligations.ReceiveEventsOccurExactlyWhereTheBlockWaits := by
  intro s b hi
  rw [← s.waiting_iff]
  exact ⟨occurs_rxByte b hi, occurs_rxErr _, occurs_timeout _, fun _ => Bool.and_eq_true_iff⟩

end Sys2Proof.Machine

/-! What a step is (42_transfer_fsm.md R170): the step of the event that it takes, and the silent clock cycle (O6). -/

namespace Sys2Proof.Machine

/-! ## The silent cycle -/

theorem silentCycle_passes {s : State} (hw : s.position.waiting = false) : silentCycle s = .answer (.next s) := by
  simp only [silentCycle, hw, Bool.false_eq_true, if_false]

theorem silentCycle_counts {s : State} (hw : s.position.waiting = true) (ht : 1 < s.tmr) :
    silentCycle s = .answer (.next { s with tmr := s.tmr - 1 }) := by
  simp only [silentCycle, hw, if_true, if_neg (Nat.not_le.2 ht)]

theorem silentCycle_expires {s : State} (hw : s.position.waiting = true) (ht : s.tmr ≤ 1) :
    silentCycle s = .run (if s.state = .awaitingStart then .pollTimeout else .rxTimeout) (timerExpired s) := by
  simp only [silentCycle, hw, if_true, if_pos ht]

/-- The step from `s` is a silent clock cycle at `u`, which differs from `s` in what taking the cycle has changed
(42_transfer_fsm.md R185). -/
structure StepsSilently (s u : State) : Prop where
  passes : s.position.waiting = false → step s = .next u
  counts : s.position.waiting = true → 1 < s.tmr → step s = .next { u with tmr := s.tmr - 1 }
  expires : s.position.waiting = true → s.tmr ≤ 1 →
    step s = exec (if s.state = .awaitingStart then .pollTimeout else .rxTimeout) { u with tmr := 0 }

theorem stepsSilently_of_fetch {s u : State} (h : fetch s = silentCycle u) (hpos : u.position = s.position)
    (htmr : u.tmr = s.tmr) : StepsSilently s u where
  passes hw := step_of_answer (h.trans (silentCycle_passes (hpos ▸ hw)))
  counts hw ht := by
    rw [← htmr] at ht ⊢
    exact step_of_answer (h.trans (silentCycle_counts (hpos ▸ hw) ht))
  expires hw ht := by
    rw [← show u.state = s.state from congrArg Position.state hpos]
    exact step_of_run (h.trans (silentCycle_expires (hpos ▸ hw) (htmr ▸ ht)))

/-! ## The event of a step -/

/-- The step from `s` is that of event `e`, occurring at `u`, which differs from `s` in what taking the event has changed. -/
structure StepTakes (s : State) (e : Event) (u : State) : Prop where
  runs : ∀ i, decode s.position e = .ok i → step s = exec i u
  memRead : ∀ a, e = .memRead a → step s = hostMemRead a u
  memWrite : ∀ a v, e = .memWrite a v → step s = hostMemWrite a v u
  refuses : decode s.position e = .error .subwordAccess → step s = .refused .subwordAccess
  silent : e = .idle → StepsSilently s u

theorem stepTakes_of_fetch {s u : State} {e : Event} (h : fetch s = fetchEvent e u) (hpos : u.position = s.position)
    (htmr : u.tmr = s.tmr) : StepTakes s e u where
  runs _ hd := step_of_run (h.trans (fetchEvent_ok (hpos ▸ hd)))
  memRead a he := by
    subst he
    exact step_of_answer h
  memWrite a v he := by
    subst he
    exact step_of_answer h
  refuses hd := by
    rw [← hpos] at hd
    exact step_of_answer (h.trans (by simp only [fetchEvent, hd, if_true]))
  silent he := by
    subst he
    exact stepsSilently_of_fetch h hpos htmr

/-- The patience after a choice, by the kind of event (60_exceptions.md R260, log 34). -/
theorem State.patienceChoosing_eq (s : State) (e : Event) :
    s.patienceChoosing e =
      if isHostAccess e then (if s.position.reading then s.patience - 1 else s.patience)
      else Config.freePatience s.draws := by
  cases he : isHostAccess e <;> simp [State.patienceChoosing, State.patienceAfter, he]

/-- The first pending event that can occur is the one a step takes. -/
theorem stepTakes_pending {s : State} {waits rest : List Event} {e : Event} (hadm : s.cfg.Admitted)
    (hev : s.events = waits ++ e :: rest) (hwaits : ∀ x ∈ waits, occurs s.position x = false)
    (he : occurs s.position e = true) :
    StepTakes s e { s with events := waits ++ rest, patience := s.patienceAfter e } :=
  stepTakes_of_fetch (fetch_event hadm (hev ▸ pick_append hwaits he)) rfl rfl

/-- Where no pending event can occur, a step takes the environment's choice. -/
theorem stepTakes_choice {s : State} {e : Event} (hadm : s.cfg.Admitted)
    (hev : ∀ x ∈ s.events, occurs s.position x = false) (hc : s.choice = some e) :
    StepTakes s e { s with draws := s.draws + 1, patience := s.patienceChoosing e } :=
  stepTakes_of_fetch (fetch_liberty hadm (pick_eq_none hev) hc) rfl rfl

/-- Where the environment chooses nothing, the block commits if it can. -/
theorem step_own_commit {s : State} (hadm : s.cfg.Admitted) (hev : ∀ x ∈ s.events, occurs s.position x = false)
    (hc : s.choice = none) (hcom : s.position.committing = true) : step s = exec .commitStep s :=
  step_of_run ((fetch_own hadm (pick_eq_none hev) hc).trans (if_pos hcom))

/-- Where the environment chooses nothing and the block has nothing to commit, a silent clock cycle passes. -/
theorem stepsSilently_own {s : State} (hadm : s.cfg.Admitted) (hev : ∀ x ∈ s.events, occurs s.position x = false)
    (hc : s.choice = none) (hcom : s.position.committing = false) : StepsSilently s s :=
  stepsSilently_of_fetch ((fetch_own hadm (pick_eq_none hev) hc).trans (if_neg (by simp [hcom]))) rfl rfl

/-- Settles O6: along what the machine fetches next: a pending event, the environment's choice, the block's own move. -/
theorem stepRunsTheDecodedOperation : Obligations.StepRunsTheDecodedOperation := by
  intro s hadm silent takes
  have silent_of {u : State} (h : StepsSilently s u) : silent u := ⟨h.passes, h.counts, h.expires⟩
  have takes_of {e : Event} {u : State} (h : StepTakes s e u) : takes e u :=
    ⟨h.runs, h.memRead, h.memWrite, h.refuses, fun he => silent_of (h.silent he)⟩
  refine ⟨fun waits rest e hev hwaits he => takes_of (stepTakes_pending hadm hev hwaits he), fun hev => ⟨?chosen, ?own⟩⟩
  case chosen =>
    intro e hc
    obtain ⟨hmem, hallows⟩ := choice_some hc
    rw [← s.patienceChoosing_eq e]
    exact ⟨hmem, occurs_of_allows hallows, takes_of (stepTakes_choice hadm hev hc)⟩
  case own =>
    intro hc
    exact ⟨fun e hmem he => (allows_host he).1 (choice_none.1 hc e hmem), step_own_commit hadm hev hc,
      fun hcom => silent_of (stepsSilently_own hadm hev hc hcom)⟩

end Sys2Proof.Machine

/-! Transfers that have ended (42_transfer_fsm.md R182): what the operations that an event selects do to one (O55). -/

namespace Sys2Proof.Machine

/-- A transfer that has ended is neither in the handshake nor in RECEIVING. -/
theorem State.not_running_of_ended {s : State} (h : s.state = .done ∨ s.state = .aborted) :
    s.state ≠ .awaitingStart ∧ s.state ≠ .receiving := by
  rcases h with h | h <;> simp [h]

/-- `t` shows the outcome of the transfer of `s`. -/
structure KeepsOutcome (s t : State) : Prop where
  state : t.state = s.state
  result : t.result = s.result
  count : t.count = s.count
  expSeq : t.expSeq = s.expSeq
  lastCtrl : t.lastCtrl = s.lastCtrl

theorem KeepsOutcome.takeByte (s : State) : KeepsOutcome s (takeByte s) := by
  rw [takeByte_eq]
  exact ⟨rfl, rfl, rfl, rfl, rfl⟩

/-- Where no transfer runs, an operation keeps the outcome, or is the START that opens a session, or the reset. -/
theorem Effect.ended {i : Instr} {s t : State} (he : Effect i s t) (hs : s.state ≠ .awaitingStart ∧ s.state ≠ .receiving) :
    KeepsOutcome s t ∨
    (∃ v, i = .start v ∧ v.getLsbD 0 = true ∧ s.busy = false ∧ t.state = .awaitingStart) ∨
    (i = .reset ∧ t.state = .idle) := by
  obtain ⟨notAwaiting, notReceiving⟩ := hs
  cases he
  case opened v hi hv hb _ _ e => exact .inr (.inl ⟨v, hi, hv, hb, by rw [e]; rfl⟩)
  case reset hi e => exact .inr (.inr ⟨hi, by rw [e]; rfl⟩)
  case txTake _ _ e => exact .inl (e ▸ .takeByte s)
  case regRead _ _ e | ignored _ _ e | bufBase _ _ _ e | bufLen _ _ _ e | crcUpdate _ _ _ e =>
    subst e
    exact .inl ⟨rfl, rfl, rfl, rfl, rfl⟩
  case handshakeReply _ _ h _ | pollTimeout _ h _ | rxErrorAwait _ h _ => exact absurd h.1 notAwaiting
  case emits _ _ _ h _ => exact (h.1.elim notAwaiting notReceiving).elim
  case commitStep _ h _ => exact absurd (s.committing_iff.1 h).1 notReceiving
  case soh _ h _ | eot _ h _ | canRx _ h _ | escRx _ h _ | unrecognised _ _ h _ | seq _ _ h _ | seqc _ _ h _ |
      data _ _ h _ _ | crch _ _ h _ | accepted _ _ h _ _ _ | rejected _ _ _ h _ | commitEnd _ h _ | rxTimeout _ h _ |
      rxError _ h _ => exact absurd h.1 notReceiving

/-- Settles O55: a step runs one operation, that an event of the environment selects or that the block takes by itself; the
block's own need a running transfer, and a host access to memory or a silent cycle keeps the outcome. -/
theorem endedTransfersAreLeftOnlyByStartOrReset : Obligations.EndedTransfersAreLeftOnlyByStartOrReset := by
  intro s t hs h
  have notRunning := State.not_running_of_ended hs
  obtain ⟨-, es, n, d, p, -, -, ⟨i, e, -, hi, hm, hx⟩ | ⟨addr, -, hr⟩ | ⟨addr, v, -, hw⟩ | rfl⟩ := step_cases h
  · rcases (exec_effect hx).ended notRunning with k | ⟨v, rfl, hv, idle, ht⟩ | ⟨rfl, ht⟩
    · exact .inl ⟨k.state, k.result, k.count, k.expSeq, k.lastCtrl⟩
    · cases hi
      exact .inr (.inl ⟨ht, ((State.busy_eq_false _).1 idle).2.2, v, hv, by simpa using hm⟩)
    · cases hi
      exact .inr (.inr ⟨ht, by simpa using hm⟩)
  · obtain ⟨v, k, rfl⟩ := hostMemRead_next hr
    exact .inl ⟨rfl, rfl, rfl, rfl, rfl⟩
  · obtain ⟨-, rfl⟩ := hostMemWrite_next hw
    exact .inl ⟨rfl, rfl, rfl, rfl, rfl⟩
  · exact .inl ⟨rfl, rfl, rfl, rfl, rfl⟩

end Sys2Proof.Machine

/-! Waits (42_transfer_fsm.md R185, 60_exceptions.md R260): how a wait goes on while the environment is silent, while the
host polls, and while the transport takes every `'C'` (O32), and unrecognised control bytes without end (O14). -/

namespace Sys2Proof.Machine

theorem State.waiting_of_awaiting {s : State} (h : s.awaiting) : s.position.waiting = true := s.waiting_iff.2 (.inl h)
theorem State.waiting_of_reading {s : State} (h : s.reading) : s.position.waiting = true := s.waiting_iff.2 (.inr h)

/-- A wait in RECEIVING is the one that R260 puts the duty on. -/
theorem State.position_reading {s : State} (h : s.reading) : s.position.reading = true := by
  simp [Position.reading, State.waiting_of_reading h, show s.position.state = .receiving from h.1]

/-- Only RECEIVING has a commit (30_encoding.md R89). -/
theorem State.not_committing_of_waiting {s : State} (h : s.position.waiting = true) : s.position.committing = false := by
  rw [← Bool.not_eq_true, s.committing_iff]
  rintro ⟨hs, hp, -⟩
  rcases s.waiting_iff.1 h with ⟨ha, -⟩ | ⟨-, hr, -⟩
  · simp [hs] at ha
  · exact hr hp

/-! ## The environment does nothing -/

/-- The environment makes no move in this position: nothing is pending, and it may choose none of its liberties. -/
structure State.Unmoved (s : State) : Prop where
  nothingPending : s.events = []
  nothingAllowed : ∀ e ∈ s.liberties, s.allows e = false

theorem State.Unmoved.ofQuiet {s : State} (h : s.quiet) : s.Unmoved :=
  ⟨h.1, by simp [h.2]⟩

/-- A wait in which the environment makes no move takes a silent clock cycle. -/
theorem State.Unmoved.stepsSilently {s : State} (h : s.Unmoved) (hadm : s.cfg.Admitted)
    (hw : s.position.waiting = true) : StepsSilently s s :=
  stepsSilently_own hadm (by simp [h.nothingPending]) (choice_none.2 h.nothingAllowed)
    (State.not_committing_of_waiting hw)

/-- A silent wait counts the timer down, one a step, and ends in the row of its timeout (42_transfer_fsm.md R185). -/
theorem run_silence {s : State} {n : Nat} (hadm : s.cfg.Admitted) (hu : s.Unmoved) (hw : s.position.waiting = true)
    (hn : max s.tmr 1 = n + 1) :
    run (n + 1) s = exec (if s.state = .awaitingStart then .pollTimeout else .rxTimeout) (timerExpired s) := by
  induction n generalizing s with
  | zero => exact (run_succ (run_zero s)).trans ((hu.stepsSilently hadm hw).expires hw (by omega))
  | succ n ih =>
    let counted : State := { s with tmr := s.tmr - 1 }
    have hcounted : max counted.tmr 1 = n + 1 := by
      simp only [counted]
      omega
    rw [run_succ_of_next ((hu.stepsSilently hadm hw).counts hw (by omega))]
    exact ih (s := counted) hadm ⟨hu.nothingPending, hu.nothingAllowed⟩ hw hcounted

theorem run_silence_reading {s : State} (hadm : s.cfg.Admitted) (hu : s.Unmoved) (h : s.reading) :
    run (max s.tmr 1) s = .next (abort .rxTimeout (timerExpired s)) := by
  obtain ⟨n, hn⟩ : ∃ n, max s.tmr 1 = n + 1 := ⟨max s.tmr 1 - 1, by omega⟩
  rw [hn, run_silence hadm hu (State.waiting_of_reading h) hn, if_neg (by simp [h.1])]
  exact exec_rxTimeout (s := timerExpired s) hadm h

theorem run_silence_awaiting {s : State} (hadm : s.cfg.Admitted) (hu : s.Unmoved) (h : s.awaiting) :
    run (max s.tmr 1) s = .next (emit byteC (timerExpired s)) := by
  obtain ⟨n, hn⟩ : ∃ n, max s.tmr 1 = n + 1 := ⟨max s.tmr 1 - 1, by omega⟩
  rw [hn, run_silence hadm hu (State.waiting_of_awaiting h) hn, if_pos h.1]
  exact exec_pollTimeout (s := timerExpired s) hadm h

/-! ## The handshake goes on for ever -/

/-- Nobody answers the handshake of `s`, and the transport at most takes the bytes offered (R178, R260). -/
structure Unanswered (s : State) : Prop where
  admitted : s.cfg.Admitted
  awaitingStart : s.state = .awaitingStart
  nothingPending : s.events = []
  onlyTakes : ∀ e ∈ s.liberties, e = .txTake

/-- `t` is as far in the transfer as `s`, in the same environment. -/
structure SameHandshake (s t : State) : Prop where
  state : t.state = s.state
  result : t.result = s.result
  count : t.count = s.count
  mem : t.mem = s.mem
  events : t.events = s.events
  liberties : t.liberties = s.liberties
  cfg : t.cfg = s.cfg

theorem SameHandshake.trans {s t u : State} (h : SameHandshake s t) (h' : SameHandshake t u) : SameHandshake s u :=
  ⟨h'.state.trans h.state, h'.result.trans h.result, h'.count.trans h.count, h'.mem.trans h.mem,
    h'.events.trans h.events, h'.liberties.trans h.liberties, h'.cfg.trans h.cfg⟩

theorem Unanswered.of_same {s t : State} (h : Unanswered s) (hst : SameHandshake s t) : Unanswered t where
  admitted := hst.cfg ▸ h.admitted
  awaitingStart := hst.state.trans h.awaitingStart
  nothingPending := hst.events.trans h.nothingPending
  onlyTakes := hst.liberties ▸ h.onlyTakes

theorem SameHandshake.takeByte (s : State) : SameHandshake s (takeByte s) := by
  rw [takeByte_eq]
  exact ⟨rfl, rfl, rfl, rfl, rfl, rfl, rfl⟩

theorem occurs_txTake (p : Position) : occurs p .txTake = true ↔ p.txv = true := by
  cases ht : p.txv <;> simp [occurs, decode, ht]

/-- A step of an unanswered handshake: the byte offered is taken, or the timer counts, or it expires and `'C'` is offered
again (42_transfer_fsm.md R172, R183). -/
theorem Unanswered.step {s : State} (h : Unanswered s) : ∃ t, step s = .next t ∧ SameHandshake s t := by
  have hev : ∀ x ∈ s.events, occurs s.position x = false := by simp [h.nothingPending]
  cases hc : s.choice with
  | some e =>
    obtain ⟨hmem, hallows⟩ := choice_some hc
    obtain rfl := h.onlyTakes e hmem
    have offered : s.txv = true := (occurs_txTake _).1 (occurs_of_allows hallows)
    let u : State := { s with draws := s.draws + 1, patience := s.patienceChoosing .txTake }
    have hstep := (stepTakes_choice h.admitted hev hc).runs .txTake (if_pos offered)
    exact ⟨_, hstep.trans (exec_txTake (s := u) h.admitted offered),
      SameHandshake.trans (t := u) ⟨rfl, rfl, rfl, rfl, rfl, rfl, rfl⟩ (.takeByte u)⟩
  | none =>
    have notCommitting : s.position.committing = false := by
      simp [Position.committing, State.position_eq, h.awaitingStart]
    have silent := stepsSilently_own h.admitted hev hc notCommitting
    cases hw : s.position.waiting with
    | false => exact ⟨s, silent.passes hw, rfl, rfl, rfl, rfl, rfl, rfl, rfl⟩
    | true =>
      by_cases ht : 1 < s.tmr
      · exact ⟨_, silent.counts hw ht, rfl, rfl, rfl, rfl, rfl, rfl, rfl⟩
      · have awaiting : s.awaiting := ⟨h.awaitingStart, ((Position.waiting_iff _).1 hw).1⟩
        have hstep := silent.expires hw (by omega)
        rw [if_pos h.awaitingStart] at hstep
        exact ⟨_, hstep.trans (exec_pollTimeout (s := timerExpired s) h.admitted awaiting),
          rfl, rfl, rfl, rfl, rfl, rfl, rfl⟩

theorem Unanswered.run {s : State} (h : Unanswered s) (k : Nat) : ∃ t, run k s = .next t ∧ SameHandshake s t := by
  induction k with
  | zero => exact ⟨s, rfl, rfl, rfl, rfl, rfl, rfl, rfl, rfl⟩
  | succ k ih =>
    obtain ⟨t, hrun, hst⟩ := ih
    obtain ⟨u, hstep, htu⟩ := (h.of_same hst).step
    exact ⟨u, (run_succ hrun).trans hstep, hst.trans htu⟩

/-! ## The host polls -/

theorem alignedWord_of_mod {off : Offset} (h : off.toNat % 4 = 0) : alignedWord off .word = true := by
  revert off
  decide

theorem decode_hostRead {off : Offset} (h : off.toNat % 4 = 0) (p : Position) :
    decode p (.hostRead off .word) = .ok (decodeRead off) :=
  if_pos (alignedWord_of_mod h)

/-- A register read changes the word returned and nothing else (43_host_interface.md R222). -/
theorem exec_decodeRead {s : State} (hadm : s.cfg.Admitted) (off : Offset) :
    ∃ w, exec (decodeRead off) s = .next (readReg w s) := by
  unfold decodeRead
  split <;> exact ⟨_, guarded_pass hadm rfl _⟩

/-- A register read that the environment chooses. -/
theorem step_chosenRead {s : State} {off : Offset} (hadm : s.cfg.Admitted) (hev : s.events = [])
    (hc : s.choice = some (.hostRead off .word)) (ha : off.toNat % 4 = 0) :
    ∃ w, step s = .next { s with
      draws := s.draws + 1, patience := s.patienceChoosing (.hostRead off .word), rdata := w } := by
  let u : State := { s with draws := s.draws + 1, patience := s.patienceChoosing (.hostRead off .word) }
  obtain ⟨w, hw⟩ := exec_decodeRead (s := u) hadm off
  have taken := stepTakes_choice hadm (by simp [hev]) hc
  exact ⟨w, (taken.runs _ (decode_hostRead ha _)).trans hw⟩

/-- `t` waits for the same byte as `s`, its timer and its patience untouched. -/
structure SameWait (s t : State) : Prop where
  position : t.position = s.position
  tmr : t.tmr = s.tmr
  patience : t.patience = s.patience

/-- While the block is busy, an operation that a host access selects leaves the wait as it is: START and the writes of the
buffer registers are ignored (43_host_interface.md R212, R216, R217). -/
theorem Effect.sameWait {i : Instr} {s t : State} {e : Event} (he : Effect i s t) (hi : encode i = some e)
    (hhost : isHostAccess e = true) (busy : s.busy = true) : SameWait s t := by
  cases he
  case regRead v _ e => exact e ▸ ⟨rfl, rfl, rfl⟩
  case ignored v _ e => exact e ▸ ⟨rfl, rfl, rfl⟩
  case opened _ _ _ idle _ _ _ | bufBase _ _ idle _ | bufLen _ _ idle _ => simp [busy] at idle
  case unrecognised b hi' _ _ =>
    rcases hi' with rfl | ⟨rfl, -⟩ | ⟨rfl, -⟩ | ⟨rfl, -⟩ | ⟨rfl, -⟩ <;> cases hi <;> cases hhost
  case accepted c hi' _ _ _ _ =>
    rcases hi' with ⟨b, rfl, -⟩ | ⟨rfl | rfl, -⟩ <;> cases hi
    cases hhost
  case rejected c cause hi' _ _ =>
    rcases hi' with ⟨b, rfl, -⟩ | ⟨rfl | rfl, -⟩ <;> cases hi
    cases hhost
  case emits b hi' _ _ _ => rcases hi' with rfl | rfl | rfl | rfl <;> cases hi
  case commitEnd hi' _ _ | crcUpdate acc b hi' _ =>
    subst hi'
    cases hi
  all_goals
    subst i
    cases hi
    cases hhost

/-- So does the step of a host access, to a register or to memory, that answers a next state. -/
theorem sameWait_of_hostAccess {s u t : State} {e : Event} (hf : fetch s = fetchEvent e u) (hhost : isHostAccess e = true)
    (busy : u.busy = true) (h : step s = .next t) : SameWait u t := by
  rcases fetchEvent_cases e u with ⟨i, -, hi, hr⟩ | hr | ⟨addr, -, hr⟩ | ⟨addr, v, -, hr⟩ | ⟨rfl, -⟩ | hr
  · rw [step_of_run (hf.trans hr)] at h
    exact (exec_effect h).sameWait hi hhost busy
  · rw [step_of_answer (hf.trans hr)] at h
    cases h
  · rw [step_of_answer (hf.trans hr)] at h
    obtain ⟨v, n, rfl⟩ := hostMemRead_next h
    exact ⟨rfl, rfl, rfl⟩
  · rw [step_of_answer (hf.trans hr)] at h
    obtain ⟨-, rfl⟩ := hostMemWrite_next h
    exact ⟨rfl, rfl, rfl⟩
  · cases hhost
  · rw [step_of_answer (hf.trans hr)] at h
    cases h
    exact ⟨rfl, rfl, rfl⟩

/-- A host access that may be chosen in a wait in RECEIVING finds patience left (60_exceptions.md R260, log 34). -/
theorem State.patience_pos_of_allows {s : State} {e : Event} (h : s.reading) (hhost : isHostAccess e = true)
    (ha : s.allows e = true) : 0 < s.patience := by
  by_contra hp
  have := (allows_host (occurs_of_allows ha)).2 ⟨hhost, State.position_reading h, by omega⟩
  simp [ha] at this

/-- A host access chosen in a wait in RECEIVING uses up one of its patience. -/
theorem State.patienceChoosing_reading {s : State} {e : Event} (h : s.reading) (hhost : isHostAccess e = true) :
    s.patienceChoosing e = s.patience - 1 := by
  simp [s.patienceChoosing_eq, hhost, State.position_reading h]

/-- `t` waits in RECEIVING for the same byte as `s`. -/
structure SameReading (s t : State) : Prop where
  reading : t.reading
  phase : t.phase = s.phase
  idx : t.idx = s.idx

theorem SameReading.of_position {s t : State} (h : s.reading) (hpos : t.position = s.position) : SameReading s t := by
  simp only [State.position_eq, Position.mk.injEq] at hpos
  obtain ⟨hs, hp, hi, ht⟩ := hpos
  exact ⟨⟨hs.trans h.1, hp ▸ h.2.1, ht.trans h.2.2⟩, hp, hi⟩

/-- While the host alone moves, a step of a wait in RECEIVING uses up patience, or counts the timer, or is the timeout
(42_transfer_fsm.md R180, R185, 60_exceptions.md R260). -/
theorem step_hostPolls {s t : State} (hr : s.reading) (hev : s.events = [])
    (hhost : ∀ e ∈ s.liberties, isHostAccess e = true) (h : step s = .next t) :
    (SameReading s t ∧
      ((t.tmr = s.tmr ∧ t.patience + 1 = s.patience) ∨ (t.tmr + 1 = s.tmr ∧ t.patience = s.patience))) ∨
    (s.tmr ≤ 1 ∧ t = abort .rxTimeout (timerExpired s)) := by
  have hadm := (step_cases h).1
  cases hc : s.choice with
  | some e =>
    obtain ⟨hmem, hallows⟩ := choice_some hc
    have he := hhost e hmem
    have same := sameWait_of_hostAccess (fetch_liberty hadm (by rw [hev]; rfl) hc) he
      (State.busy_of_receiving hr.1) h
    have left := State.patience_pos_of_allows hr he hallows
    have used : t.patience = s.patience - 1 := same.patience.trans (State.patienceChoosing_reading hr he)
    exact .inl ⟨.of_position hr same.position, .inl ⟨same.tmr, by omega⟩⟩
  | none =>
    have hw := State.waiting_of_reading hr
    have silent := State.Unmoved.stepsSilently ⟨hev, choice_none.1 hc⟩ hadm hw
    by_cases ht : 1 < s.tmr
    · rw [silent.counts hw ht] at h
      cases h
      exact .inl ⟨.of_position hr rfl, .inr ⟨Nat.sub_add_cancel (by omega), rfl⟩⟩
    · rw [silent.expires hw (by omega), if_neg (by simp [hr.1])] at h
      cases h.symm.trans (exec_rxTimeout (s := timerExpired s) hadm hr)
      exact .inr ⟨by omega, rfl⟩

/-- The environment of `s` is a host that reads registers, and nobody else (log 34). -/
structure Polled (s : State) : Prop where
  nothingPending : s.events = []
  someRead : s.liberties ≠ []
  onlyReads : ∀ e ∈ s.liberties, ∃ off : Offset, e = .hostRead off .word ∧ off.toNat % 4 = 0

/-- With patience left, a polling host reads a register. -/
theorem Polled.step {s : State} {p : Nat} (h : Polled s) (hadm : s.cfg.Admitted) (hr : s.reading)
    (hp : s.patience = p + 1) :
    ∃ w, step s = .next { s with draws := s.draws + 1, patience := p, rdata := w } := by
  obtain ⟨x, hx⟩ := List.exists_mem_of_ne_nil _ h.someRead
  obtain ⟨o, rfl, ho⟩ := h.onlyReads x hx
  have allowed : s.allows (.hostRead o .word) = true := by
    rw [← Bool.not_eq_false, allows_host (occurs_of_decode (decode_hostRead ho _))]
    rintro ⟨-, -, h0⟩
    omega
  obtain ⟨e, hc⟩ := exists_choice ⟨_, hx, allowed⟩
  obtain ⟨off, rfl, ha⟩ := h.onlyReads e (choice_some hc).1
  obtain ⟨w, hw⟩ := step_chosenRead hadm h.nothingPending hc ha
  rw [State.patienceChoosing_reading hr rfl, hp] at hw
  exact ⟨w, hw⟩

/-- With no patience left, a polling host makes no move in a wait in RECEIVING. -/
theorem Polled.unmoved {s : State} (h : Polled s) (hr : s.reading) (hp : s.patience = 0) : s.Unmoved where
  nothingPending := h.nothingPending
  nothingAllowed e he := by
    obtain ⟨off, rfl, ha⟩ := h.onlyReads e he
    exact (allows_host (occurs_of_decode (decode_hostRead ha _))).2 ⟨rfl, State.position_reading hr, hp⟩

/-- A polled wait in RECEIVING: the patience is used up first, and then the timer runs out in silence. -/
theorem Polled.run {s : State} {p : Nat} (h : Polled s) (hadm : s.cfg.Admitted) (hr : s.reading)
    (hp : s.patience = p) :
    ∃ w, run (p + max s.tmr 1) s =
      .next { abort .rxTimeout (timerExpired s) with rdata := w, draws := s.draws + p, patience := 0 } := by
  induction p generalizing s with
  | zero =>
    refine ⟨s.rdata, ?_⟩
    rw [Nat.zero_add, Nat.add_zero, run_silence_reading hadm (h.unmoved hr hp) hr, ← hp]
    rfl
  | succ p ih =>
    obtain ⟨v, hstep⟩ := h.step hadm hr hp
    let polled : State := { s with draws := s.draws + 1, patience := p, rdata := v }
    obtain ⟨w, hrun⟩ := ih (s := polled) ⟨h.nothingPending, h.someRead, h.onlyReads⟩ hadm hr rfl
    refine ⟨w, ?_⟩
    rw [Nat.add_right_comm, run_succ_of_next hstep]
    refine hrun.trans ?_
    simp only [polled, Nat.add_assoc, Nat.add_comm 1 p]
    rfl

/-- Settles O32: silence runs the timer out; an unanswered handshake stays; host accesses are bounded by the patience. -/
theorem silenceRunsTheWaitTimerOut : Obligations.SilenceRunsTheWaitTimerOut := by
  refine ⟨fun s hadm hq => ?silent, fun s k hadm hs hev htake => ?handshake, fun s t hr hev hhost h => ?host,
    fun s hadm hr hev hsome hreads => ?polled⟩
  case silent => exact ⟨run_silence_reading hadm (.ofQuiet hq), run_silence_awaiting hadm (.ofQuiet hq)⟩
  case handshake =>
    have unanswered : Unanswered s := ⟨hadm, hs, hev, htake⟩
    obtain ⟨t, hrun, same⟩ := unanswered.run k
    exact ⟨t, hrun, same.state.trans hs, same.result, same.count, same.mem⟩
  case host =>
    rcases step_hostPolls hr hev hhost h with ⟨same, counted⟩ | ⟨expired, rfl⟩
    · exact .inl ⟨same.reading, same.phase, same.idx, counted⟩
    · exact .inr ⟨expired, rfl, rfl⟩
  case polled =>
    have polled : Polled s := ⟨hev, hsome, hreads⟩
    exact polled.run hadm hr rfl

/-! ## Unrecognised control bytes -/

/-- A byte that R81 gives to its last row. -/
abbrev unrecognised (b : Byte) : Prop := b ≠ byteSOH ∧ b ≠ byteEOT ∧ b ≠ byteCAN ∧ b ≠ byteESC

theorem exec_otherCtrl {s : State} {b : Byte} (hadm : s.cfg.Admitted) (h : s.receivingIn .ctrl) (hb : unrecognised b) :
    exec (.otherCtrl b) s = .next (unrecognisedCtrl (recordCtrl b s)) := by
  have context : (Instr.otherCtrl b).inContext s.position = true := by
    obtain ⟨hsoh, heot, hcan, hesc⟩ := hb
    obtain ⟨hs, hp, ht⟩ := h
    simp [Instr.inContext, State.position_eq, hs, hp, ht, hsoh, heot, hcan, hesc]
  exact guarded_pass hadm context _

/-- The row of such a byte, under whichever name spec/opcode_table.json has for it, records it and handles it as R177 says
(log 20). -/
theorem exec_decodeCtrl {s : State} {b : Byte} (hadm : s.cfg.Admitted) (h : s.receivingIn .ctrl) (hb : unrecognised b) :
    exec (decodeCtrl b) s = .next (unrecognisedCtrl (recordCtrl b s)) := by
  have context := State.receivingIn_context h
  obtain ⟨hsoh, heot, hcan, hesc⟩ := hb
  rcases decodeCtrl_unrecognised hsoh heot hcan hesc with e | ⟨e, rfl⟩ | ⟨e, rfl⟩ | ⟨e, rfl⟩ | ⟨e, rfl⟩ <;> rw [e]
  · exact exec_otherCtrl hadm h ⟨hsoh, heot, hcan, hesc⟩
  · exact guarded_pass (i := .nakRx) hadm context _
  · exact guarded_pass (i := .ackRx) hadm context _
  · exact guarded_pass (i := .stxRx) hadm context _
  · exact guarded_pass (i := .cRx) hadm context _

/-- The environment of `s` presents unrecognised bytes, at least one, and register reads without end (R260, log 34). -/
structure Babbled (s : State) : Prop where
  nothingPending : s.events = []
  someByte : ∃ b, .rxByte b ∈ s.liberties
  onlyNoise : ∀ e ∈ s.liberties, (∃ b : Byte, e = .rxByte b ∧ unrecognised b) ∨
    ∃ off : Offset, e = .hostRead off .word ∧ off.toNat % 4 = 0

/-- A byte may be chosen wherever the block reads a control byte, so the environment always chooses something. -/
theorem Babbled.exists_choice {s : State} (h : Babbled s) (hr : s.receivingIn .ctrl) : ∃ e, s.choice = some e := by
  obtain ⟨b, hb⟩ := h.someByte
  exact Machine.exists_choice ⟨_, hb, allows_of_occurs (occurs_of_decode (decode_rxByte_ctrl b hr)) rfl⟩

/-- Under DISCARD what it chooses changes the control byte recorded, the timer and the word read alone. -/
theorem Babbled.step {s : State} (h : Babbled s) (hadm : s.cfg.Admitted) (hr : s.receivingIn .ctrl)
    (hd : s.cfg.unknownCtrl = .discard) :
    ∃ c n p w, step s = .next { s with lastCtrl := c, tmr := n, draws := s.draws + 1, patience := p, rdata := w } := by
  obtain ⟨e, hc⟩ := h.exists_choice hr
  rcases h.onlyNoise e (choice_some hc).1 with ⟨b, rfl, hb⟩ | ⟨off, rfl, ha⟩
  · let u : State := { s with draws := s.draws + 1, patience := s.patienceChoosing (.rxByte b) }
    have taken := stepTakes_choice hadm (by simp [h.nothingPending]) hc
    have hstep := (taken.runs _ (decode_rxByte_ctrl b hr)).trans (exec_decodeCtrl (s := u) hadm hr hb)
    rw [unrecognisedCtrl_discard (s := recordCtrl b u) hd] at hstep
    exact ⟨b, _, _, s.rdata, hstep⟩
  · obtain ⟨w, hstep⟩ := step_chosenRead hadm h.nothingPending hc ha
    exact ⟨s.lastCtrl, s.tmr, _, w, hstep⟩

/-- So it is for ever: each step leaves the block in `(RECEIVING, CTRL)`, and the environment as it was. -/
theorem Babbled.run {s : State} (h : Babbled s) (hadm : s.cfg.Admitted) (hr : s.receivingIn .ctrl)
    (hd : s.cfg.unknownCtrl = .discard) (k : Nat) :
    ∃ c n p w, run k s = .next { s with lastCtrl := c, tmr := n, draws := s.draws + k, patience := p, rdata := w } := by
  induction k with
  | zero => exact ⟨s.lastCtrl, s.tmr, s.patience, s.rdata, rfl⟩
  | succ k ih =>
    obtain ⟨c, n, p, w, hrun⟩ := ih
    let u : State := { s with lastCtrl := c, tmr := n, draws := s.draws + k, patience := p, rdata := w }
    have hu : Babbled u := ⟨h.nothingPending, h.someByte, h.onlyNoise⟩
    obtain ⟨c', n', p', w', hstep⟩ := hu.step hadm hr hd
    exact ⟨c', n', p', w', (run_succ hrun).trans hstep⟩

/-- Settles O14: the rows of R177 at each byte; under DISCARD, by induction on the number of steps. -/
theorem unrecognisedControlBytes : Obligations.UnrecognisedControlBytes := by
  refine ⟨fun s b hadm h => ?rows, fun s k hadm h hd hev hbyte hnoise => ?forever⟩
  case rows =>
    exact ⟨fun hsoh heot hcan hesc => exec_otherCtrl hadm h ⟨hsoh, heot, hcan, hesc⟩,
      exec_decodeCtrl (b := byteNAK) hadm h (by decide), exec_decodeCtrl (b := byteACK) hadm h (by decide),
      exec_decodeCtrl (b := byteSTX) hadm h (by decide), exec_decodeCtrl (b := byteC) hadm h (by decide)⟩
  case forever =>
    have babbled : Babbled s := ⟨hev, hbyte, hnoise⟩
    exact babbled.run hadm h hd k

end Sys2Proof.Machine

/-! The host's register window (43_host_interface.md): what each access answers and which fields its word shows (O33, O35 to
O38), and that a read has no side effect (O39). -/

namespace Sys2Proof.Machine

/-! ## A host access, as a step -/

theorem decode_hostWrite {off : Offset} (h : off.toNat % 4 = 0) (p : Position) (v : Word) :
    decode p (.hostWrite off .word v) = .ok (decodeWrite off v) :=
  if_pos (alignedWord_of_mod h)

/-- A pending register read is taken at every position. -/
theorem step_pendingRead {s : State} {off : Offset} {rest : List Event} (hadm : s.cfg.Admitted) (ha : off.toNat % 4 = 0)
    (hev : s.events = .hostRead off .word :: rest) : ∃ w, step s = .next { s with events := rest, rdata := w } := by
  have decoded := decode_hostRead ha s.position
  have taken := stepTakes_pending (waits := []) hadm hev (by simp) (occurs_of_decode decoded)
  obtain ⟨w, hw⟩ := exec_decodeRead (s := { s with events := rest }) hadm off
  exact ⟨w, (taken.runs _ decoded).trans hw⟩

/-- Settles O39: a read runs a row that sets the word returned alone; what the decoder answers is in its context. -/
theorem noHostReadHasASideEffect : Obligations.NoHostReadHasASideEffect := by
  refine ⟨fun s off rest hadm ha hev => step_pendingRead hadm ha hev, fun p off v ha => ?accesses⟩
  case accesses =>
    have context {e : Event} {i : Instr} (decoded : decode p e = .ok i) :
        ∃ i, decode p e = .ok i ∧ i.inContext p = true := ⟨i, decoded, (decode_sound decoded).2.2⟩
    exact ⟨context (decode_hostRead ha p), context (decode_hostWrite ha p v)⟩

/-! ## START -/

/-- Of the word written to `CTRL`, START reads bit 0 alone. -/
theorem exec_start {s : State} (hadm : s.cfg.Admitted) (v : Word) :
    exec (.start v) s = if !v.getLsbD 0 || s.busy then .next s else startTransfer s :=
  guarded_pass (i := .start v) hadm rfl _

theorem startTransfer_wraps {s : State} (hw : 2 ^ s.cfg.aw < s.bufBase.toNat + s.bufLen.toNat) :
    startTransfer s = .fault .regionWrap :=
  if_pos (s.regionWraps_iff.2 hw)

/-- Settles O33: START is ignored, or the region wraps, or it runs inside ordinary memory. -/
theorem startOpensASession : Obligations.StartOpensASession := by
  intro s v hadm
  refine ⟨fun hv => ?unset, fun hb => ?busy, fun hv hb hw => ?wraps, fun hv hb hw hd => ?opens⟩
  case unset => exact (exec_start hadm v).trans (if_pos (by rw [hv, Bool.not_false, Bool.true_or]))
  case busy => exact (exec_start hadm v).trans (if_pos (by rw [hb, Bool.or_true]))
  case wraps => exact (execStart_open hadm hv hb).trans (startTransfer_wraps hw)
  case opens => exact (execStart_open hadm hv hb).trans (startTransfer_open hw hd)

/-! ## The words of `STATUS`, `SEQ` and `CRC`

The widths of the parts are kept as a sum (`-Nat.reduceAdd`): the library's lemmas about `++` match a width of that form. -/

/-- `STATUS` shows each field at its place (43_host_interface.md R214). -/
theorem statusFields_of_append (idx : Byte) (result : BitVec 4) (busy : Bool) (phase : BitVec 3) (txv : Bool)
    (state : BitVec 3) :
    let w := 0#8 ++ idx ++ 0#4 ++ result ++ BitVec.ofBool busy ++ phase ++ BitVec.ofBool txv ++ state
    w.extractLsb' 0 3 = state ∧ w.getLsbD 3 = txv ∧ w.extractLsb' 4 3 = phase ∧ w.getLsbD 7 = busy ∧
      w.extractLsb' 8 4 = result ∧ w.extractLsb' 12 4 = 0 ∧ w.extractLsb' 16 8 = idx ∧ w.extractLsb' 24 8 = 0 := by
  simp [-Nat.reduceAdd, -BitVec.getLsbD_eq_getElem, BitVec.extractLsb'_append_eq_ite, BitVec.getLsbD_append]

/-- Settles O35: the word read is the fields appended. -/
theorem statusReadShowsItsFields : Obligations.StatusReadShowsItsFields :=
  ⟨fun _ hadm => ⟨_, guarded_pass (i := .statusRead) hadm rfl _, statusFields_of_append _ _ _ _ _ _⟩, rfl⟩

/-- Four bytes appended, as in `SEQ`, are read back each at its place (43_host_interface.md R219). -/
theorem bytes_of_append (a b c d : Byte) :
    let w := a ++ b ++ c ++ d
    w.extractLsb' 0 8 = d ∧ w.extractLsb' 8 8 = c ∧ w.extractLsb' 16 8 = b ∧ w.extractLsb' 24 8 = a := by
  simp [-Nat.reduceAdd, BitVec.extractLsb'_append_eq_ite]

/-- The halves of a word appended, as in `CRC`, are read back (43_host_interface.md R220). -/
theorem halves_of_append (a b : Crc16) : (a ++ b).extractLsb' 0 16 = b ∧ (a ++ b).extractLsb' 16 16 = a := by
  simp [-Nat.reduceAdd, BitVec.extractLsb'_append_eq_ite]

/-- Settles O36: each word read is the fields appended; a write is a row that answers the state as it is. -/
theorem seqAndCrcReadsShowTheirFields : Obligations.SeqAndCrcReadsShowTheirFields :=
  ⟨fun _ hadm => ⟨_, guarded_pass (i := .seqRead .read) hadm rfl _, bytes_of_append _ _ _ _⟩,
    fun _ hadm => ⟨_, guarded_pass (i := .crcRead .read) hadm rfl _, halves_of_append _ _⟩,
    fun _ v hadm => ⟨guarded_pass (i := .seqRead (.write v)) hadm rfl _,
      guarded_pass (i := .crcRead (.write v)) hadm rfl _⟩, rfl⟩

/-! ## The plain registers -/

/-- Settles O37: each row under its guard; two words that START reads alike select the same case. -/
theorem plainRegistersReadAndIgnoreWrites : Obligations.PlainRegistersReadAndIgnoreWrites := by
  intro s v w hadm
  refine ⟨guarded_pass (i := .ctrlRead) hadm rfl _, fun same => ?start,
    guarded_pass (i := .statusWrite v) hadm rfl _, guarded_pass (i := .countRead .read) hadm rfl _,
    guarded_pass (i := .countRead (.write v)) hadm rfl _, guarded_pass (i := .reserved1c .read) hadm rfl _,
    guarded_pass (i := .reserved1c (.write v)) hadm rfl _⟩
  case start => rw [exec_start hadm, exec_start hadm, same]

/-! ## The buffer registers -/

/-- `v[AW-1:0]`, where a register word holds `AW` bits. -/
theorem addressBits_toNat {aw : Nat} (h : aw ≤ 32) (v : Word) : (addressBits aw v).toNat = v.toNat % 2 ^ aw := by
  rw [addressBits, BitVec.toNat_setWidth_of_le h, BitVec.toNat_setWidth]

theorem exec_bufBaseWrite {s : State} (hadm : s.cfg.Admitted) (v : Word) :
    exec (.bufBaseAccess (.write v)) s =
      .next (if s.busy then s else { s with bufBase := addressBits s.cfg.aw v }) :=
  guarded_pass (i := .bufBaseAccess (.write v)) hadm rfl _

theorem exec_bufLenWrite {s : State} (hadm : s.cfg.Admitted) (v : Word) :
    exec (.bufLenAccess (.write v)) s = .next (if s.busy then s else { s with bufLen := v }) :=
  guarded_pass (i := .bufLenAccess (.write v)) hadm rfl _

/-- An address wider than a register word is refused in every row (43_host_interface.md R216, log 5). -/
theorem exec_wideAddress {s : State} (hn : s.cfg.nakRetry = false) (hw : 32 < s.cfg.aw) (i : Instr) :
    exec i s = .refused .wideAddress := by
  obtain ⟨o, ho⟩ := exec_guarded i s
  have refuses : configRefusal s.cfg = some .wideAddress := by simp [configRefusal, hn, hw]
  rw [ho, guarded, refuses]

/-- Settles O38: a write looks at `BUSY`; `BUF_BASE` keeps the low `AW` bits of the word. -/
theorem bufferRegistersAreWrittenOnlyWhileNotBusy : Obligations.BufferRegistersAreWrittenOnlyWhileNotBusy := by
  intro s v
  refine ⟨fun hadm => ⟨guarded_pass (i := .bufBaseAccess .read) hadm rfl _,
    guarded_pass (i := .bufLenAccess .read) hadm rfl _, fun hb => ?busy, fun hb => ?idle⟩,
    fun hn hw => ⟨exec_wideAddress hn hw _, exec_wideAddress hn hw _⟩⟩
  case busy => simp [exec_bufBaseWrite hadm, exec_bufLenWrite hadm, hb]
  case idle =>
    refine ⟨⟨addressBits s.cfg.aw v, addressBits_toNat hadm.2 v, ?base⟩, ?len⟩
    case base => simp [exec_bufBaseWrite hadm, hb]
    case len => simp [exec_bufLenWrite hadm, hb]

end Sys2Proof.Machine

/-! What the model refuses (60_exceptions.md R252): a host access that is no aligned word, and a parameter choice that
marks the whole run (O42). -/

namespace Sys2Proof.Machine

theorem alignedWord_eq_false {off : Offset} {size : AccessSize} (h : size ≠ .word ∨ off.toNat % 4 ≠ 0) :
    alignedWord off size = false := by
  rw [← Bool.not_eq_true]
  intro aligned
  obtain ⟨rfl, ho⟩ := alignedWord_cases aligned
  rcases ho with rfl | rfl | rfl | rfl | rfl | rfl | rfl | rfl <;> simp at h

/-- A pending event that the decoder refuses as no aligned word is taken, and its step is the refusal. -/
theorem step_subwordAccess {s : State} {e : Event} {rest : List Event} (hadm : s.cfg.Admitted) (hev : s.events = e :: rest)
    (hd : decode s.position e = .error .subwordAccess) : step s = .refused .subwordAccess :=
  (stepTakes_pending (waits := []) hadm hev (by simp) (by simp [occurs, hd])).refuses hd

/-- A parameter choice that is not admitted refuses every step and every operation (60_exceptions.md R252, log 5). -/
theorem refuses_of_configRefusal {s : State} {r : Refusal} (h : configRefusal s.cfg = some r) (i : Instr) :
    step s = .refused r ∧ exec i s = .refused r := by
  obtain ⟨o, ho⟩ := exec_guarded i s
  exact ⟨step_of_answer (by simp only [fetch, h]), by simp only [ho, guarded, h]⟩

/-- Settles O42: the decoder refuses the access; the configuration refuses the run. -/
theorem whatTheModelDoesNotAdmitIsRefused : Obligations.WhatTheModelDoesNotAdmitIsRefused := by
  refine ⟨fun s off size v rest hadm h hev => ?access, fun s i => ⟨fun hn => ?nakRetry, fun hn hw => ?wideAddress⟩⟩
  case access =>
    have unaligned : ¬ alignedWord off size = true := by simp [alignedWord_eq_false h]
    rcases hev with hev | hev
    · exact step_subwordAccess hadm hev (if_neg unaligned)
    · exact step_subwordAccess hadm hev (if_neg unaligned)
  case nakRetry => exact refuses_of_configRefusal (if_pos hn) i
  case wideAddress => exact refuses_of_configRefusal (by simp [configRefusal, hn, hw]) i

end Sys2Proof.Machine

/-! Aborts (60_exceptions.md R240 to R244): every way into ABORTED is the abort entry after what its event writes (O56). -/

namespace Sys2Proof.Machine

/-- Every way into ABORTED (60_exceptions.md R242): what the event writes before the abort entry, and the cause. -/
inductive AbortEntry (i : Instr) (s t : State) : Prop where
  | control (b : Byte) (cause : XferResult) (hi : encode i = some (.rxByte b))
      (hc : cause = .senderCan ∨ cause = .senderEsc ∨ cause = .unknownCtrl) (e : t = abort cause (recordCtrl b s))
  | timeout (hi : i = .rxTimeout) (e : t = abort .rxTimeout (timerExpired s))
  | transportError (e : t = abort .rxError s)
  | rejected (c : Crc16) (cause : RejectCause) (hc : c = s.rxCrc ∨ ∃ b, i = .crcl b ∧ c = s.rxCrc.extractLsb' 8 8 ++ b)
      (e : t = rejectFrame cause { s with rxCrc := c })

/-- A control byte that ends in ABORTED has one of three causes (30_encoding.md R81, 42_transfer_fsm.md R175 to R177). -/
theorem dispatchCtrl_aborted {b : Byte} {s : State} (hs : s.state ≠ .aborted) (h : (dispatchCtrl b s).state = .aborted) :
    ∃ c : XferResult, (c = .senderCan ∨ c = .senderEsc ∨ c = .unknownCtrl) ∧
      dispatchCtrl b s = abort c (recordCtrl b s) := by
  rcases dispatchCtrl_cases b s with e | e | aborts | e
  · rw [e] at h
    exact absurd h hs
  · rw [e] at h
    cases h
  · exact aborts
  · rw [e] at h
    exact absurd h hs

@[simp] theorem commitByte_state (s : State) : (commitByte s).state = s.state := by
  rcases commitByte_cases s with ⟨-, e⟩ | ⟨-, e⟩ <;> rw [e] <;> rfl

/-- The operations that end in ABORTED, by their effects; every other keeps `STATE` or leaves it at another value. -/
theorem Effect.abortEntry {i : Instr} {s t : State} (he : Effect i s t) (hs : s.state ≠ .aborted)
    (ht : t.state = .aborted) : AbortEntry i s t := by
  cases he
  case canRx hi _ e => exact .control byteCAN _ (by rw [hi]; rfl) (by simp) e
  case escRx hi _ e => exact .control byteESC _ (by rw [hi]; rfl) (by simp) e
  case unrecognised b hi _ e =>
    have encoded : encode i = some (.rxByte b) := by
      rcases hi with rfl | ⟨rfl, rfl⟩ | ⟨rfl, rfl⟩ | ⟨rfl, rfl⟩ | ⟨rfl, rfl⟩ <;> rfl
    rcases e with rfl | e
    · exact absurd ht hs
    · exact .control b _ encoded (by simp) e
  case handshakeReply b hi _ e =>
    obtain ⟨c, hc, e'⟩ := dispatchCtrl_aborted (s := { s with state := .receiving }) (by simp) (e ▸ ht)
    exact .control b c (by rw [hi]; rfl) hc (e.trans e')
  case rxTimeout hi _ e => exact .timeout hi e
  case rxErrorAwait _ _ e | rxError _ _ e => exact .transportError e
  case rejected c cause hi _ e => exact .rejected c cause (hi.symm.imp And.right id) e
  case commitStep _ _ e => exact absurd (by rwa [e, commitByte_state] at ht) hs
  case txTake _ _ e => exact absurd ((KeepsOutcome.takeByte s).state.symm.trans (e ▸ ht)) hs
  case eot _ _ e | opened _ _ _ _ _ _ e | reset _ e =>
    subst e
    cases ht
  case soh _ _ e | seq _ _ _ e | seqc _ _ _ e | data _ _ _ _ e | crch _ _ _ e | accepted _ _ _ _ _ e |
      commitEnd _ _ e | emits _ _ _ _ e | pollTimeout _ _ e | regRead _ _ e | ignored _ _ e | bufBase _ _ _ e |
      bufLen _ _ _ e | crcUpdate _ _ _ e =>
    subst e
    exact absurd ht hs

theorem RejectCause.result_cases (c : RejectCause) :
    c.result = .badCrc ∨ c.result = .badSeq ∨ c.result = .badSeqc := by
  cases c <;> simp [RejectCause.result]

/-- Settles O56: along the ways into ABORTED, each of which writes its own field alone before the abort entry. -/
theorem anAbortKeepsItsEvidence : Obligations.AnAbortKeepsItsEvidence := by
  intro i s t h hs ht
  cases (exec_effect h).abortEntry hs ht
  case control b cause hi hc e =>
    subst e
    exact ⟨by rcases hc with rfl | rfl | rfl <;> simp, rfl, .inl rfl, .inr ⟨hi, hc⟩, .inl rfl, .inl ⟨rfl, rfl⟩⟩
  case timeout hi e =>
    subst e
    exact ⟨by simp, rfl, .inl rfl, .inl rfl, .inr ⟨hi, rfl⟩, .inl ⟨rfl, rfl⟩⟩
  case transportError e =>
    subst e
    exact ⟨by simp, rfl, .inl rfl, .inl rfl, .inl rfl, .inl ⟨rfl, rfl⟩⟩
  case rejected c cause hc e =>
    subst e
    exact ⟨isAbortCause_reject cause, rfl, hc, .inl rfl, .inl rfl, .inr ⟨rfl, rfl, RejectCause.result_cases cause⟩⟩

end Sys2Proof.Machine

/-! The events of one clock cycle of the ports (30_encoding.md R88, R89, 60_exceptions.md R246): the block's own event, by
where the block stands (O60). -/

namespace Sys2Proof.Machine

/-! ## The block's own event -/

/-- Where the block waits for a byte it offers none (42_transfer_fsm.md R184). -/
theorem State.not_offering_of_waiting {s : State} (h : s.position.waiting = true) : s.txv = false :=
  ((Position.waiting_iff _).1 h).1

theorem State.not_waiting_of_offering {s : State} (h : s.txv = true) : s.position.waiting = false := by
  simp [Position.waiting, State.position_eq, h]

theorem State.not_waiting_of_committing {s : State} (h : s.position.committing = true) : s.position.waiting = false := by
  cases hw : s.position.waiting with
  | true => simp [State.not_committing_of_waiting hw] at h
  | false => rfl

/-- A block that does not offer a byte and commit at once has one event a cycle: a byte or an error taken where it waits, the
offered byte taken, a write acked, or silence. The timer is not looked at. -/
theorem blockEvent_eq (p : Pins) {s : State} (exclusive : s.txv = true → s.position.committing = false) :
    blockEvent p s =
      [if s.position.waiting then
        (if p.crcIdle && p.rxValid then (if p.rxErr then .rxErr else .rxByte p.rxData) else .idle)
      else if s.txv then (if p.txReady then .txTake else .idle)
      else if s.position.committing && p.memAck then .commitStep
      else .idle] := by
  cases waiting : s.position.waiting with
  | true =>
    have notOffering := State.not_offering_of_waiting waiting
    have notCommitting := State.not_committing_of_waiting waiting
    cases taken : p.crcIdle && p.rxValid <;>
      simp [blockEvent, State.txValid, State.rxReady, State.memWe, waiting, notOffering, notCommitting, taken]
  | false =>
    cases offering : s.txv with
    | true =>
      cases taken : p.txReady <;>
        simp [blockEvent, State.txValid, State.rxReady, State.memWe, waiting, offering, exclusive offering, taken]
    | false =>
      cases acked : s.position.committing && p.memAck <;>
        simp [blockEvent, State.txValid, State.rxReady, State.memWe, waiting, offering, acked]

/-! ## The cycle -/

theorem hostEvent_eq (p : Pins) :
    hostEvent p = if p.regSel = false then []
      else if p.regWe then [.hostWrite (p.regAddr ++ 0#2) .word p.regWdata]
      else [.hostRead (p.regAddr ++ 0#2) .word] := by
  simp [hostEvent]

theorem cycleEvents_rst {p : Pins} (h : p.rst = true) (s : State) : cycleEvents p s = [.reset] := if_pos h

/-- Without `rst`, a cycle is the host access and then the block's own event (log 24). -/
theorem cycleEvents_of_blockEvent {p : Pins} {s : State} {es : List Event} (h : p.rst = false)
    (hb : blockEvent p s = es) : cycleEvents p s = hostEvent p ++ es := by
  rw [cycleEvents, h, hb]
  rfl

/-- Settles O60: the host access, and the block's own event where it waits, offers a byte, commits, or does none of these. -/
theorem oneCycleIsOneBlockEvent : Obligations.OneCycleIsOneBlockEvent := by
  intro p s
  refine ⟨fun hr => cycleEvents_rst hr s, fun hr => ?_⟩
  rw [← hostEvent_eq]
  have cycle (exclusive : s.txv = true → s.position.committing = false) :=
    cycleEvents_of_blockEvent hr (blockEvent_eq p exclusive)
  have waits (h : s.awaiting ∨ s.reading) : s.position.waiting = true ∧ s.txv = false :=
    have hw := s.waiting_iff.2 h
    ⟨hw, State.not_offering_of_waiting hw⟩
  refine ⟨fun h hi hv he => ?error, fun h hi hv he => ?byte, fun h hn => ?untaken, fun ht hc => ?offering,
    fun ht hc => ?committing, fun ht hw hc => ?silent⟩
  case error => simp [cycle, waits h, hi, hv, he]
  case byte => simp [cycle, waits h, hi, hv, he]
  case untaken => rcases hn with hn | hn <;> simp [cycle, waits h, hn]
  case offering => simp [cycle, State.not_waiting_of_offering ht, ht, hc]
  case committing => simp [cycle, State.not_waiting_of_committing hc, ht, hc]
  case silent => simp [cycle, ht, hw, hc]

end Sys2Proof.Machine

/-! The RESET command (70_reset_and_hazards.md R270, R271): what it answers, and what is left in memory (O43). -/

namespace Sys2Proof.Machine

/-- RESET is in context at every position; with admitted parameters it always answers a next state
(70_reset_and_hazards.md R270). -/
theorem exec_reset {s : State} (hadm : s.cfg.Admitted) :
    exec .reset s = .next (resetRegisters (writeInFlight s)) :=
  guarded_pass (i := .reset) hadm rfl _

/-- Settles O43: by what the write in flight can do; where it lands, one byte of memory is the staged one. -/
theorem resetCommandRestoresTheRegisters : Obligations.ResetCommandRestoresTheRegisters := by
  intro s hadm
  rw [exec_reset hadm]
  rcases writeInFlight_cases s with ⟨hc, e⟩ | ⟨hc, m, hm, e⟩
  case inl =>
    exact ⟨s.mem, s.draws, by rw [e]; rfl, fun _ => ⟨rfl, rfl⟩, fun h => by simp [hc] at h⟩
  case inr =>
    refine ⟨m, s.draws + 1, by rw [e]; rfl, fun h => by simp [hc] at h, fun _ => ?_⟩
    rcases hm with rfl | rfl
    · exact ⟨fun _ _ => rfl, .inl rfl⟩
    · exact ⟨fun _ ha => Mem.read_write_other ha, .inr (Mem.read_write_same ..)⟩

end Sys2Proof.Machine
